-- ==== Sys2Proof/Word.lean ====
section
/-! DEFINITION. The word types of the engine (00_scope.md R9: every quantity is an unsigned value of a stated width, or a byte string of stated length). -/

namespace Sys2Proof

/-- One byte: a key byte, a byte of a block. -/
abbrev Byte := BitVec 8

/-- One 32-bit bus word, and one command word (R8 `BUS_BITS`, R70). -/
abbrev Word := BitVec 32

/-- A 128-bit value: an address, a mask, the pad, a candidate (R7 `BLOCK_BITS`). -/
abbrev Block := BitVec 128

/-- A 16-byte string, byte 0 first (R11): a cipher key or a cipher block (R100). -/
abbrev Bytes16 := Vector Byte 16

/-- A 32-byte string, byte 0 first (R11): the key (R7 `KEY_BYTES`). -/
abbrev Bytes32 := Vector Byte 32

end Sys2Proof
end

