-- ==== Sys2Proof/Syntax.lean ====
section
/-! DEFINITION. The engine's commands (one constructor per row of the opcode table, R72), and the host's side of the interface: register names, host operations and the lines of a host program (R52, R80, R81). -/

namespace Sys2Proof

/-- The commands of the engine (30_encoding.md R72). -/
inductive Instr where
  /-- `nop` (R120) -/
  | nop
  /-- `keyclr` (R121) -/
  | keyclr
  /-- `keyb b`: the operand is one byte, all 256 values legal (R73, R122) -/
  | keyb (b : Byte)
  /-- `build` (R124) -/
  | build
  /-- `anon4` (R178) -/
  | anon4
  /-- `anon6` (R179) -/
  | anon6
  deriving DecidableEq, Repr

/-- The address family of an ANON command (R75). -/
inductive Family where
  | v4
  | v6
  deriving DecidableEq, Repr

/-- The registers of the window (20_memory.md R52); `din k` and `res k` are word k of DIN and of RES (R53). -/
inductive Reg where
  | cmd
  | status
  | din (k : Fin 4)
  | res (k : Fin 4)
  deriving DecidableEq, Repr

/-- One operation of the host: a bus access of `bits` bits at bus address `addr`, or the host's branch
on its temporary `t` (R80). A legal access of the engine has `bits = 32` (R55); the others can be made too. -/
inductive HostOp where
  | read (bits addr : Nat)
  | write (bits addr : Nat) (value : Word)
  /-- `bnz t & mask, target`: `target` is a position in the host's program -/
  | bnz (mask : Word) (target : Nat)
  deriving DecidableEq, Repr

/-- One line of a host program in the spec's own notation (R80), pseudo-instructions among them (R81). A label is the
number of the line it stands before (log 15). -/
inductive HostLine where
  /-- an engine command on a line of its own: the pseudo-instruction `issue` -/
  | cmd (i : Instr)
  | wr (r : Reg) (imm : Word)
  | rd (r : Reg)
  | bnz (mask : Word) (label : Nat)
  | wait
  | ldkey (key : List Byte)
  | setdin (v : Block)
  | setdin4 (v : Word)
  | getres
  | getres4
  | clrovr
  deriving DecidableEq, Repr

/-- What the bus answers to an access: the value read, a write done, or an error response (R206). -/
inductive BusReply where
  | data (v : Word)
  | done
  | error
  deriving DecidableEq, Repr

/-- What the host does on a bus error response. R206 leaves it open; I10 recommends a fault of the host program (log 7). -/
inductive BusErrorAction where
  | fault
  | resume
  deriving DecidableEq, Repr

/-- Whose step comes next in the one total order of a run (R60), or the assertion of the reset input (R230). -/
inductive Turn where
  | host
  | engine
  | reset
  deriving DecidableEq, Repr

end Sys2Proof
end

