-- ==== Sys2Proof/WellFormed.lean ====
section
/-! DEFINITION. Which terms stand for something the spec's notation can say. -/

namespace Sys2Proof

/-- Every term of `Instr` is a legal command: the operand of `keyb` is a byte and each of the 256 values is legal (R73);
the other commands take none (R74, R75). -/
def Instr.wf : Instr → Bool
  | .nop => true
  | .keyclr => true
  | .keyb _ => true
  | .build => true
  | .anon4 => true
  | .anon6 => true

/-- A line of a host program of `lines` lines is well formed when `ldkey` gives exactly the 32 key bytes k0 to k31 (R81) and a branch names a line
of the program (R80). -/
def HostLine.wf (lines : Nat) : HostLine → Bool
  | .cmd i => i.wf
  | .wr _ _ => true
  | .rd _ => true
  | .bnz _ label => decide (label < lines)
  | .wait => true
  | .ldkey key => key.length == 32
  | .setdin _ => true
  | .setdin4 _ => true
  | .getres => true
  | .getres4 => true
  | .clrovr => true

/-- Every line of the program is well formed. -/
def hostProgramWf (p : List HostLine) : Bool :=
  p.all (HostLine.wf p.length)

end Sys2Proof
end

