-- ==== Sys2Proof/Decode.lean ====
section
/-! DEFINITION. The decoder (R76), total on 32-bit words, each illegal word rejected by the name of what is wrong with it (R77), and the encoder (R82). -/

namespace Sys2Proof

/-- Field `OP`, bits 7:0 (R71). -/
def opField (w : Word) : BitVec 8 := w.extractLsb' 0 8

/-- Field `ARG`, bits 15:8 (R71). -/
def argField (w : Word) : BitVec 8 := w.extractLsb' 8 8

/-- Field `RSV`, bits 31:16 (R71). -/
def rsvField (w : Word) : BitVec 16 := w.extractLsb' 16 16

/-- Why a word is ILLEGAL: the four kinds of R77. -/
inductive Illegal where
  /-- a non-zero `RSV` -/
  | reserved
  /-- an opcode 0x05 to 0xFF -/
  | opcode
  /-- a non-zero `ARG` for NOP, KEYCLR or BUILD -/
  | argument
  /-- an ANON word whose `ARG` is neither 0x00 nor 0x01 -/
  | family
  deriving DecidableEq, Repr

/-- What the decoder answers: a command, or ILLEGAL with its reason. -/
inductive Decoded where
  | command (i : Instr)
  | illegal (why : Illegal)
  deriving DecidableEq, Repr

/-- The command, where there is one. -/
def Decoded.toOption : Decoded → Option Instr
  | .command i => some i
  | .illegal _ => none

/-- A command that takes no operand: `ARG` must be 0x00 (R74). -/
def withoutOperand (arg : BitVec 8) (i : Instr) : Decoded :=
  if arg = 0x00#8 then .command i else .illegal .argument

/-- The family operand of an ANON word: `ARG` is 0x00 for IPv4 and 0x01 for IPv6 (R75). -/
def anonOperand (arg : BitVec 8) : Decoded :=
  if arg = 0x00#8 then .command .anon4
  else if arg = 0x01#8 then .command .anon6
  else .illegal .family

/-- R76: the decoder depends on the word alone. -/
def decode (w : Word) : Decoded :=
  if rsvField w ≠ 0x0000#16 then .illegal .reserved
  else if opField w = 0x00#8 then withoutOperand (argField w) .nop
  else if opField w = 0x01#8 then withoutOperand (argField w) .keyclr
  else if opField w = 0x02#8 then .command (.keyb (argField w))
  else if opField w = 0x03#8 then withoutOperand (argField w) .build
  else if opField w = 0x04#8 then anonOperand (argField w)
  else .illegal .opcode

/-- A word of format C from its fields, RSV = 0 (R71). -/
def formatC (op arg : BitVec 8) : Word := (BitVec.setWidth 32 arg <<< 8) ||| BitVec.setWidth 32 op

/-- R82: `enc(<cmd>)`. -/
def encode : Instr → Word
  | .nop => formatC 0x00#8 0x00#8
  | .keyclr => formatC 0x01#8 0x00#8
  | .keyb b => formatC 0x02#8 b
  | .build => formatC 0x03#8 0x00#8
  | .anon4 => formatC 0x04#8 0x00#8
  | .anon6 => formatC 0x04#8 0x01#8

/-- The instruction the decoder reads from a word given as a number of `nbits` bits. Every command is one 32-bit word
(R70), so a number that does not fit in 32 bits is no command. -/
def decodeTableWord (nbits w : Nat) : Option Instr :=
  if w % 2 ^ nbits < 2 ^ 32 then (decode (BitVec.ofNat 32 (w % 2 ^ nbits))).toOption else none

end Sys2Proof
end

