-- ==== Sys2Proof/Config.lean ====
section
/-! DEFINITION. What the spec leaves to the implementation, as constants with no body: nothing can be proved of their values, so a claim about the model holds for every one of them. -/

namespace Sys2Proof.Config

/-- The block-cipher primitive `E`: a 16-byte key and a 16-byte block in, a 16-byte block out
(R8, R100; total, deterministic and without state, R101 a to c). Which cipher it is, is open (D2, log 2). -/
opaque E : Bytes16 → Bytes16 → Bytes16

/-- FREE VALUE (I13, log 11): what the scratch register `I` holds after an ANON command (within its range, R38). -/
opaque scratchI : Nat → Fin 129

/-- FREE VALUE (I13, log 11): what the scratch register `ACC` holds after an ANON command. -/
opaque scratchAcc : Nat → Block

/-- FREE VALUE (I13, log 11): what the scratch register `CAND` holds after an ANON command. -/
opaque scratchCand : Nat → Block

/-- FREE VALUE (I10, log 7): what the host temporary `t` holds after a bus read that got an error response. -/
opaque errorData : Nat → Word

end Sys2Proof.Config
end

