-- ==== Sys2Proof/Machine/State.lean ====
section
/-! DEFINITION. The state of the engine (10_state.md R20 to R38) and of what surrounds it, the reasons a step can stop, and the state right after reset (R41). All of it is plain data. -/

namespace Sys2Proof.Machine

/-- The outcome of a completed command, as STATUS.ERR records it (R27). The four codes of R201 and no other: codes 4 to
15 are never produced. -/
inductive ErrCode where
  /-- code 0: the command completed with no error -/
  | ok
  /-- code 1, KeyLengthError: KEYCNT ≠ 32 at BUILD -/
  | keyLength
  /-- code 2, NoContext: CTXV = 0 at ANON4 or ANON6 -/
  | noContext
  /-- code 3, IllegalCommand: the word is ILLEGAL -/
  | illegalCommand
  deriving DecidableEq, Repr

/-- The scratch registers of one ANON command (R38): the iteration index `I` (0 to 128), the accumulator `ACC` and the
candidate `CAND`. -/
structure Scratch where
  i : Fin 129
  acc : Block
  cand : Block
  deriving DecidableEq, Repr

/-- What R20 calls parameters of the model and not state of the engine (`BASE`, `LAT`, the host's program), and the host
as R80 describes it. It is held beside the engine as plain data, so that a claim about every state holds for every
program, base and order of steps. -/
structure Env where
  /-- `BASE`, the bus address of the register window (R51) -/
  base : Nat
  /-- the host's reaction to a bus error (R206, I10) -/
  onBusError : BusErrorAction
  /-- the host's program (R80) -/
  prog : List HostOp
  /-- the host's position in its program -/
  hpc : Nat
  /-- the host temporary `t` (R80) -/
  t : Word
  /-- the bus replies the host has had, newest first: what the host has observed. The engine never reads it. -/
  trace : List BusReply
  /-- whose step comes next, and next after that (R60); past its end the engine goes first (R40, fairness) -/
  schedule : List Turn
  deriving DecidableEq, Repr

/-- The state of the machine (R20). BUSY is `pend ≠ none` (R26); the MASK ROM is a constant (R36). -/
structure State where
  /-- `DIN`, the operand register (R22) -/
  din : Block
  /-- `RES`, the result register (R23) -/
  res : Block
  /-- `STATUS.CTXV`: a keyed context is installed (R25, R33) -/
  ctxv : Bool
  /-- `STATUS.OVR`: sticky overrun (R25, R204) -/
  ovr : Bool
  /-- `STATUS.ERR` (R27) -/
  err : ErrCode
  /-- `KEYCNT`, saturating at 255 (R31) -/
  keycnt : BitVec 8
  /-- `KEYBUF[0..31]` (R30) -/
  keybuf : Bytes32
  /-- `CK`, the installed cipher key (R33) -/
  ck : Bytes16
  /-- `PAD` (R34) -/
  pad : Block
  /-- `MP[0..127]`, the masked pads (R35) -/
  mp : Vector Block 128
  /-- `PEND`: none, or the accepted word awaiting completion (R38) -/
  pend : Option Word
  /-- `LATV`, the copy of DIN taken at acceptance (R38, R39) -/
  latv : Block
  /-- `LATF`, the family bit taken at acceptance (R38, R39) -/
  latf : BitVec 1
  /-- `I`, `ACC`, `CAND` (R38) -/
  scratch : Scratch
  /-- the model's own: how many free values have been taken (log 11) -/
  draws : Nat
  /-- the parameters and the host -/
  env : Env
  deriving DecidableEq, Repr

/-- Why the machine stops. -/
inductive Fault where
  /-- The host program faults: an access got a bus error response (R206) and the host's reaction is to fault, as I10
  recommends. Raised by the host's turn only. Safe: the machine stops where a host may go on, and the reaction `resume` shows what
  follows when it does. -/
  | busError
  deriving DecidableEq, Repr

/-- Why a step has no meaning. -/
inductive Refusal where
  /-- An instruction without a meaning, by its mnemonic. Raised by no arm of this model. Safe. -/
  | notModelled (mnemonic : String)
  /-- The host accessed a bus address outside the engine's 64-byte window (R51): another device, of which the spec says
  nothing. Raised by the host's turn only. Safe: the machine stops where the platform goes on. -/
  | outsideWindow
  deriving DecidableEq, Repr

/-- The parameters and the host when nothing has been loaded (log 3 to 7): no program, no schedule, base 0. -/
def Env.empty : Env where
  base := 0
  onBusError := .fault
  prog := []
  hpc := 0
  t := 0
  trace := []
  schedule := []

/-- The scratch registers after reset (R41). -/
def Scratch.zero : Scratch where
  i := 0
  acc := 0
  cand := 0

/-- The machine right after reset: every value of the table of R41. -/
def State.reset : State where
  din := 0
  res := 0
  ctxv := false
  ovr := false
  err := .ok
  keycnt := 0
  keybuf := Vector.replicate 32 0
  ck := Vector.replicate 16 0
  pad := 0
  mp := Vector.replicate 128 0
  pend := none
  latv := 0
  latf := 0
  scratch := Scratch.zero
  draws := 0
  env := Env.empty

end Sys2Proof.Machine
end

