-- ==== Sys2Proof/Machine/Flags.lean ====
section
/-! DEFINITION. The flags: the fields of STATUS and the word they form (R25), the codes of ERR (R201), the counter KEYCNT (R31) and the clearing of OVR (R205). -/

namespace Sys2Proof.Machine

/-- The 4-bit code of an outcome (R201). -/
def errCode : ErrCode → BitVec 4
  | .ok => 0
  | .keyLength => 1
  | .noContext => 2
  | .illegalCommand => 3

/-- R26: BUSY is 1 exactly when a word is pending. -/
def busy (s : State) : Bool := s.pend.isSome

/-- R25: the STATUS word, BUSY in bit 0, CTXV in bit 1, OVR in bit 3, ERR in bits 7:4 and KEYCNT in bits 15:8. Bits 31:16
and bit 2 are reserved and read as zero. -/
def statusWord (s : State) : Word :=
  BitVec.setWidth 32 (BitVec.ofBool (busy s)) |||
    (BitVec.setWidth 32 (BitVec.ofBool s.ctxv) <<< 1) |||
    (BitVec.setWidth 32 (BitVec.ofBool s.ovr) <<< 3) |||
    (BitVec.setWidth 32 (errCode s.err) <<< 4) |||
    (BitVec.setWidth 32 s.keycnt <<< 8)

/-- R31: `min(KEYCNT + 1, 255)`. -/
def keycntSucc (n : BitVec 8) : BitVec 8 := BitVec.ofNat 8 (min (n.toNat + 1) 255)

/-- R205: OVR after a host write of `v` to STATUS: bit 3 set clears it, bit 3 clear leaves it. -/
def ovrAfterWrite (v : Word) (ovr : Bool) : Bool := ovr && !v.getLsbD 3

end Sys2Proof.Machine
end

