-- ==== Sys2Proof/Machine/Operands.lean ====
section
/-! DEFINITION. Operand forms and bit-level helpers: byte order at the cipher (R11, R104, R105), the mask ROM (R12, R36), the key split (R130), the words of a 128-bit register (R53), and the value of an ANON operand by family (R170 to R172). -/

namespace Sys2Proof.Machine

/-- Byte k of a 16-byte string at its place in the big-endian value: times 2^(8·(15−k)) (R11). -/
def bePart (b : Bytes16) (k : Fin 16) : Block := BitVec.setWidth 128 b[k] <<< (8 * (15 - k.val))

/-- R11 `be128`: a 16-byte string read as a big-endian 128-bit value, byte 0 in bits 127:120. -/
def be128 (b : Bytes16) : Block :=
  bePart b 0 ||| bePart b 1 ||| bePart b 2 ||| bePart b 3 ||| bePart b 4 ||| bePart b 5 ||| bePart b 6 ||| bePart b 7 |||
    bePart b 8 ||| bePart b 9 ||| bePart b 10 ||| bePart b 11 ||| bePart b 12 ||| bePart b 13 ||| bePart b 14 ||| bePart b 15

/-- R11 `unbe128`: byte k of the result is bits 127−8k : 120−8k. -/
def unbe128 (v : Block) : Bytes16 :=
  Vector.ofFn fun k => v.extractLsb' (120 - 8 * k.val) 8

/-- R12: the 128-bit value with exactly the top `p` bits set. -/
def mask (p : Nat) : Block := BitVec.allOnes 128 <<< (128 - p)

/-- R36: `MASK[p]`, the constant half of mask-table entry p. -/
def maskRom (p : Fin 128) : Block := mask p.val

/-- R130: `cipherKey = key[0:16]`. -/
def cipherKey (key : Bytes32) : Bytes16 := Vector.ofFn fun j => key[j.val]

/-- R130: `padSeed = key[16:32]`. -/
def padSeed (key : Bytes32) : Bytes16 := Vector.ofFn fun j => key[16 + j.val]

/-- R53: word k of a 128-bit register is bits 32k+31 : 32k. -/
def wordOf (v : Block) (k : Fin 4) : Word := v.extractLsb' (32 * k.val) 32

/-- R57: the register with word k replaced and nothing else. -/
def setWord (v : Block) (k : Fin 4) (x : Word) : Block :=
  (v &&& ~~~ (BitVec.setWidth 128 (BitVec.allOnes 32) <<< (32 * k.val))) ||| (BitVec.setWidth 128 x <<< (32 * k.val))

/-- R170: the width n = addressBits of a family. -/
def addressBits : Family → Nat
  | .v4 => 32
  | .v6 => 128

/-- R172: the input's own value at its native width, zero-extended to 128 bits. -/
def originalValue (f : Family) (latv : Block) : Block :=
  match f with
  | .v4 => BitVec.setWidth 128 (BitVec.setWidth 32 latv)
  | .v6 => latv

/-- R171, the address-width multiplexer: an IPv4 value stands in the top 32 bits, an IPv6 value as it is. -/
def alignedValue (f : Family) (latv : Block) : Block :=
  match f with
  | .v4 => originalValue .v4 latv <<< 96
  | .v6 => originalValue .v6 latv

end Sys2Proof.Machine
end

