-- ==== Sys2Proof/Machine/Ops.lean ====
section
/-! DEFINITION. The named operations over the state that several steps share: acceptance of a command word (R39, R204), its completion with and without an error (R40, R203), the register window (R52 to R57, R206) and the reset event (R230). -/

namespace Sys2Proof.Machine

/-! ### Completion (R40, R203) -/

/-- The end of every completion: `PEND <- none`, and with it `BUSY <- 0` (R203). NOP ends with this alone. -/
def retire (s : State) : State := { s with pend := none }

/-- Completion with no error: `ERR <- 0`, `BUSY <- 0`, `PEND <- none` (R203). -/
def succeed (s : State) : State := { s with err := .ok, pend := none }

/-- `raise`: THE ONE operation that ends a command with an error (R203, R209). The state is as it was before the command,
but for ERR, BUSY and PEND. The engine takes no trap and returns from none (R209, R210): this is all of it. -/
def raise (e : ErrCode) (s : State) : State := { s with err := e, pend := none }

/-! ### Acceptance (R39, R204) -/

/-- Whether acceptance of the word latches the operand: it decodes to ANON4 or ANON6 (R39). -/
def isAnon (w : Word) : Bool :=
  match decode w with
  | .command .anon4 => true
  | .command .anon6 => true
  | .command _ => false
  | .illegal _ => false

/-- R39: `PEND <- w`, and for an ANON word `LATV <- DIN`, `LATF <- w[8]`. -/
def accept (w : Word) (s : State) : State :=
  { s with
    pend := some w
    latv := if isAnon w then s.din else s.latv
    latf := if isAnon w then w.extractLsb' 8 1 else s.latf }

/-- A host write of `w` to CMD: accepted when BUSY = 0 (R39), else the word is discarded and OVR is set (R204). -/
def offer (w : Word) (s : State) : State :=
  if busy s then { s with ovr := true } else accept w s

/-! ### The register window (R51 to R57) -/

/-- The offset of a register in the window (R52). -/
def regOffset : Reg → Nat
  | .cmd => 0x00
  | .status => 0x04
  | .din k => 0x10 + 4 * k.val
  | .res k => 0x20 + 4 * k.val

/-- The register at an offset, where there is one (R52): the map of the window, whose other offsets are unmapped (R56). -/
def regAt : Nat → Option Reg
  | 0x00 => some .cmd
  | 0x04 => some .status
  | 0x10 => some (.din 0)
  | 0x14 => some (.din 1)
  | 0x18 => some (.din 2)
  | 0x1C => some (.din 3)
  | 0x20 => some (.res 0)
  | 0x24 => some (.res 1)
  | 0x28 => some (.res 2)
  | 0x2C => some (.res 3)
  | _ => none

/-- The offset in the window at `base` of a bus address, where the address lies in its 64 bytes (R51). DESIGN CHOICE
(log 14): the START address alone decides, whatever the access's width. An access that starts below BASE and reaches into
the window (64 bits at BASE − 4, 32 bits at BASE − 2) is outside it; one that starts inside and reaches past its end is an
access of the engine, and gets the error response of R55. -/
def windowOffset (base addr : Nat) : Option Nat :=
  if base ≤ addr ∧ addr < base + 64 then some (addr - base) else none

/-- Whether an access is one aligned 32-bit access (R55). -/
def accessOk (bits off : Nat) : Bool := bits == 32 && off % 4 == 0

/-- The value of a register as the host reads it: CMD reads 0 (R24), STATUS is the word of R25, DINk and RESk are the
words of R53. -/
def readReg (s : State) : Reg → Word
  | .cmd => 0
  | .status => statusWord s
  | .din k => wordOf s.din k
  | .res k => wordOf s.res k

/-- A host read of `bits` bits at an offset of the window: the value, or `none` for an error response. No read has a side
effect (R57). Malformed and unmapped accesses get the error response (R206), which is checked first (R207). -/
def busRead (s : State) (bits off : Nat) : Option Word :=
  if accessOk bits off then (regAt off).map (readReg s) else none

/-- A host write of a register: CMD offers a command (R39), STATUS clears OVR (R205), DINk replaces its 32 bits (R57);
RES is read-only, and a write of it gets an error response (R56). -/
def writeReg (r : Reg) (v : Word) (s : State) : Option State :=
  match r with
  | .cmd => some (offer v s)
  | .status => some { s with ovr := ovrAfterWrite v s.ovr }
  | .din k => some { s with din := setWord s.din k v }
  | .res _ => none

/-- A host write of `bits` bits at an offset of the window: the state after it, or `none` for an error response, which
changes nothing (R206). -/
def busWrite (bits off : Nat) (v : Word) (s : State) : Option State :=
  if accessOk bits off then (regAt off).bind fun r => writeReg r v s else none

/-! ### Reset (R230) -/

/-- R230: every piece of the engine's state takes its reset value. A pending command is abandoned and leaves no trace
(R231). The parameters, the host and the model's own counter are not the engine's state. -/
def resetEngine (s : State) : State :=
  { State.reset with draws := s.draws, env := s.env }

end Sys2Proof.Machine
end

