-- ==== Sys2Proof/Machine/Anon.lean ====
section
/-! DEFINITION. The pseudorandom bit `calc` (42_prbg.md R150), the anonymization loop (43_anonymize.md R170 to R177) and the commands ANON4 and ANON6 (R178 to R180). The operations take the cipher primitive as an argument (R8, R100); the commands use `Config.E`. -/

namespace Sys2Proof.Machine

/-- R150: the top bit of byte 0 of the candidate enciphered under CK. -/
def calcBit (E : Bytes16 → Bytes16 → Bytes16) (ck : Bytes16) (c : Block) : BitVec 1 :=
  (E ck (unbe128 c))[0].extractLsb' 7 1

/-- R175: the candidate of iteration i, the first i bits of the address and then pad bits. -/
def candidate (mp : Vector Block 128) (aligned : Block) (i : Fin 128) : Block :=
  (aligned &&& maskRom i) ||| mp[i]

/-- One iteration of the loop (R175, R176): CAND, then ACC with the new bit shifted in, then I advances by one (R28). At
I = 128 there is no iteration left. -/
def iteration (E : Bytes16 → Bytes16 → Bytes16) (ck : Bytes16) (mp : Vector Block 128) (aligned : Block)
    (c : Scratch) : Scratch :=
  if h : c.i.val < 128 then
    { i := ⟨c.i.val + 1, Nat.succ_lt_succ h⟩
      acc := (c.acc <<< 1) ||| BitVec.setWidth 128 (calcBit E ck (candidate mp aligned ⟨c.i.val, h⟩))
      cand := candidate mp aligned ⟨c.i.val, h⟩ }
  else c

/-- R173: the first `k` iterations, in ascending order, from I = 0 and ACC = 0 (R176). -/
def loop (E : Bytes16 → Bytes16 → Bytes16) (ck : Bytes16) (mp : Vector Block 128) (aligned : Block)
    (c : Scratch) : Nat → Scratch
  | 0 => { c with i := 0, acc := 0 }
  | k + 1 => iteration E ck mp aligned (loop E ck mp aligned c k)

/-- The accumulator after all iterations of the family (R170, R176). -/
def accumulated (E : Bytes16 → Bytes16 → Bytes16) (f : Family) (s : State) : Block :=
  (loop E s.ck s.mp (alignedValue f s.latv) s.scratch (addressBits f)).acc

/-- R177: the low n bits of the accumulator, XOR the original value, zero-extended. -/
def xorResult (f : Family) (acc orig : Block) : Block :=
  match f with
  | .v4 => BitVec.setWidth 128 (BitVec.setWidth 32 acc ^^^ BitVec.setWidth 32 orig)
  | .v6 => acc ^^^ orig

/-- The value ANON writes to RES: it depends on the context and on the latched operand (R187). -/
def anonResult (E : Bytes16 → Bytes16 → Bytes16) (f : Family) (s : State) : Block :=
  xorResult f (accumulated E f s) (originalValue f s.latv)

/-- ANON's effect: RES, and the scratch registers left with values the spec does not fix (R38, I13): free values. -/
def finishAnon (E : Bytes16 → Bytes16 → Bytes16) (f : Family) (s : State) : State :=
  { s with
    res := anonResult E f s
    scratch :=
      { i := Config.scratchI s.draws
        acc := Config.scratchAcc s.draws
        cand := Config.scratchCand s.draws }
    draws := s.draws + 1 }

/-- R178, R179: NoContext when no context is installed (R180), else the anonymization. -/
def anonWith (E : Bytes16 → Bytes16 → Bytes16) (f : Family) (s : State) : State :=
  if s.ctxv then succeed (finishAnon E f s) else raise .noContext s

/-- R178. -/
def execAnon4 (s : State) : Host.Outcome State Fault Refusal :=
  .next (anonWith Config.E .v4 s)

/-- R179. -/
def execAnon6 (s : State) : Host.Outcome State Fault Refusal :=
  .next (anonWith Config.E .v6 s)

end Sys2Proof.Machine
end

