-- ==== Sys2Proof/Machine/Build.lean ====
section
/-! DEFINITION. The command BUILD and the mask-table precomputation unit (41_key_and_build.md R124 to R136). The operations take the cipher primitive as an argument (R8, R100); the command uses `Config.E`. -/

namespace Sys2Proof.Machine

/-- R132: the pad, one call of the primitive on the padding seed under the cipher key, read big-endian (R104). -/
def padOf (E : Bytes16 → Bytes16 → Bytes16) (key : Bytes32) : Block :=
  be128 (E (cipherKey key) (padSeed key))

/-- R133: `MP[p] = padInt & ~MASK[p]` for p in 0..127. -/
def maskedPads (pad : Block) : Vector Block 128 :=
  Vector.ofFn fun p => pad &&& ~~~ maskRom p

/-- The one indivisible commit of a context (R126): CK, PAD, MP and CTXV together. -/
def installContext (E : Bytes16 → Bytes16 → Bytes16) (s : State) : State :=
  { s with
    ck := cipherKey s.keybuf
    pad := padOf E s.keybuf
    mp := maskedPads (padOf E s.keybuf)
    ctxv := true }

/-- R124: the completion of BUILD with the primitive `E`. -/
def buildWith (E : Bytes16 → Bytes16 → Bytes16) (s : State) : State :=
  if s.keycnt = 32#8 then succeed (installContext E s) else raise .keyLength s

/-- R124. -/
def execBuild (s : State) : Host.Outcome State Fault Refusal :=
  .next (buildWith Config.E s)

end Sys2Proof.Machine
end

