-- ==== Sys2Proof/Machine/KeyLoad.lean ====
section
/-! DEFINITION. The commands NOP, KEYCLR and KEYB (41_key_and_build.md R120 to R122). -/

namespace Sys2Proof.Machine

/-- KEYCLR's effect: every byte of KEYBUF and the counter become 0 (R121). -/
def clearKey (s : State) : State :=
  { s with keybuf := Vector.replicate 32 0, keycnt := 0 }

/-- KEYB's effect: the byte is stored at KEYBUF[KEYCNT] while KEYCNT < 32, and counted, saturating at 255 (R122). -/
def appendKeyByte (b : Byte) (s : State) : State :=
  { s with
    keybuf := if h : s.keycnt.toNat < 32 then s.keybuf.set s.keycnt.toNat b h else s.keybuf
    keycnt := keycntSucc s.keycnt }

/-- R120: nothing but the end of the BUSY cycle; ERR keeps the code of the command before. -/
def execNop (s : State) : Host.Outcome State Fault Refusal :=
  .next (retire s)

/-- R121. -/
def execKeyclr (s : State) : Host.Outcome State Fault Refusal :=
  .next (succeed (clearKey s))

/-- R122. -/
def execKeyb (b : Byte) (s : State) : Host.Outcome State Fault Refusal :=
  .next (succeed (appendKeyByte b s))

end Sys2Proof.Machine
end

