-- ==== Sys2Proof/Machine/Dispatch.lean ====
section
/-! DEFINITION. One arm per command: the completion of a pending command (R40). -/

namespace Sys2Proof.Machine

def exec (i : Instr) (s : State) : Host.Outcome State Fault Refusal :=
  match i with
  | .nop => Sys2Proof.Machine.execNop s
  | .keyclr => Sys2Proof.Machine.execKeyclr s
  | .keyb b => Sys2Proof.Machine.execKeyb b s
  | .build => Sys2Proof.Machine.execBuild s
  | .anon4 => Sys2Proof.Machine.execAnon4 s
  | .anon6 => Sys2Proof.Machine.execAnon6 s

end Sys2Proof.Machine
end

