-- ==== Sys2Proof/Machine/HostProgram.lean ====
section
/-! DEFINITION. The host's notation (30_encoding.md R80) and its pseudo-instructions (R81), expanded to bus accesses and branches. A line's expansion depends on the position it stands at, because `wait` branches back to itself. -/

namespace Sys2Proof.Machine

/-- `rd REG`: a 32-bit read of a register (R80). -/
def rdOp (base : Nat) (r : Reg) : HostOp := .read 32 (base + regOffset r)

/-- `wr REG, imm32`: a 32-bit write of a register (R80). -/
def wrOp (base : Nat) (r : Reg) (v : Word) : HostOp := .write 32 (base + regOffset r) v

/-- `wait` at position `pos` (R81): `L: rd STATUS`, `bnz t & 0x1, L`. -/
def waitOps (base pos : Nat) : List HostOp := [rdOp base .status, .bnz 0x00000001#32 pos]

/-- `issue <cmd>` (R81): `wait`, then `wr CMD, enc(<cmd>)`. -/
def issueOps (base pos : Nat) (i : Instr) : List HostOp :=
  waitOps base pos ++ [wrOp base .cmd (encode i)]

/-- Several commands one after another, each an `issue` of three operations. -/
def issueAllOps (base : Nat) : Nat → List Instr → List HostOp
  | _, [] => []
  | pos, i :: rest => issueOps base pos i ++ issueAllOps base (pos + 3) rest

/-- How many operations a line expands to. -/
def lineSize : HostLine → Nat
  | .cmd _ => 3
  | .wr _ _ => 1
  | .rd _ => 1
  | .bnz _ _ => 1
  | .wait => 2
  | .ldkey key => 3 * (key.length + 1)
  | .setdin _ => 4
  | .setdin4 _ => 1
  | .getres => 6
  | .getres4 => 3
  | .clrovr => 1

/-- The position at which line `n` of a program starts. -/
def lineStart (p : List HostLine) (n : Nat) : Nat := ((p.take n).map lineSize).sum

/-- The expansion of one line of the program `p`, at position `pos` (R80, R81). -/
def lineOps (base : Nat) (p : List HostLine) (pos : Nat) : HostLine → List HostOp
  | .cmd i => issueOps base pos i
  | .wr r v => [wrOp base r v]
  | .rd r => [rdOp base r]
  | .bnz m label => [.bnz m (lineStart p label)]
  | .wait => waitOps base pos
  | .ldkey key => issueAllOps base pos (.keyclr :: key.map .keyb)
  | .setdin v => [wrOp base (.din 0) (wordOf v 0), wrOp base (.din 1) (wordOf v 1),
      wrOp base (.din 2) (wordOf v 2), wrOp base (.din 3) (wordOf v 3)]
  | .setdin4 v => [wrOp base (.din 0) v]
  | .getres => waitOps base pos ++
      [rdOp base (.res 0), rdOp base (.res 1), rdOp base (.res 2), rdOp base (.res 3)]
  | .getres4 => waitOps base pos ++ [rdOp base (.res 0)]
  | .clrovr => [wrOp base .status 0x00000008#32]

/-- The expansions of the lines from position `pos` on. -/
def assembleFrom (base : Nat) (p : List HostLine) : Nat → List HostLine → List HostOp
  | _, [] => []
  | pos, l :: rest => lineOps base p pos l ++ assembleFrom base p (pos + lineSize l) rest

/-- A host program as the operations the host runs. -/
def assemble (base : Nat) (p : List HostLine) : List HostOp := assembleFrom base p 0 p

end Sys2Proof.Machine
end

