-- ==== Sys2Proof/Machine/Turns.lean ====
section
/-! DEFINITION. The turns of a run (R50, R60): one operation of the host, one completion of the engine, one assertion of the reset input; and how the next turn is found. -/

namespace Sys2Proof.Machine

/-! ### The engine's turn (R40) -/

/-- The completion of the pending word: a command performs its rule, an illegal word raises IllegalCommand (R202). With
nothing pending the engine has no step, and the turn passes. -/
def engineTurn (s : State) : Host.Outcome State Fault Refusal :=
  match s.pend with
  | none => .next s
  | some w =>
    match decode w with
    | .command i => exec i s
    | .illegal _ => .next (raise .illegalCommand s)

/-! ### The host's turn (R80) -/

/-- The host goes on after its access: the reply is added to what it has observed. -/
def hostAdvance (reply : BusReply) (t : Word) (s : State) : State :=
  { s with env := { s.env with hpc := s.env.hpc + 1, t := t, trace := reply :: s.env.trace } }

/-- The host meets a bus error (R206): it faults, or goes on, as the parameter says (I10). -/
def hostError (t : Word) (s : State) : Host.Outcome State Fault Refusal :=
  match s.env.onBusError with
  | .fault => .fault .busError
  | .resume => .next (hostAdvance .error t s)

/-- A host read: the value goes to `t` (R80). A host that goes on after a failed read has an unknown value in `t`.
DESIGN CHOICE (log 21): the platform restricts no access to the window (R213 leaves it open). -/
def hostRead (bits addr : Nat) (s : State) : Host.Outcome State Fault Refusal :=
  match windowOffset s.env.base addr with
  | none => .refused .outsideWindow
  | some off =>
    match busRead s bits off with
    | some v => .next (hostAdvance (.data v) v s)
    | none => hostError (Config.errorData s.draws) { s with draws := s.draws + 1 }

/-- A host write (R80). DESIGN CHOICE (log 21): the platform restricts no access to the window (R213 leaves it open). -/
def hostWrite (bits addr : Nat) (v : Word) (s : State) : Host.Outcome State Fault Refusal :=
  match windowOffset s.env.base addr with
  | none => .refused .outsideWindow
  | some off =>
    match busWrite bits off v s with
    | some s' => .next (hostAdvance .done s'.env.t s')
    | none => hostError s.env.t s

/-- The host's branch `bnz t & mask, target`, taken when `t & mask ≠ 0` (R80). -/
def hostBranch (m : Word) (target : Nat) (s : State) : State :=
  { s with env := { s.env with hpc := if s.env.t &&& m ≠ 0 then target else s.env.hpc + 1 } }

/-- One operation of the host's program. Past its end the host has no step, and the turn passes. -/
def hostTurn (s : State) : Host.Outcome State Fault Refusal :=
  match s.env.prog[s.env.hpc]? with
  | none => .next s
  | some (.read bits addr) => hostRead bits addr s
  | some (.write bits addr v) => hostWrite bits addr v s
  | some (.bnz m target) => .next (hostBranch m target s)

/-! ### Whose turn it is (R60) -/

/-- One turn. -/
def takeTurn (turn : Turn) (s : State) : Host.Outcome State Fault Refusal :=
  match turn with
  | .host => hostTurn s
  | .engine => engineTurn s
  | .reset => .next (resetEngine s)

/-- Whose turn is next: the schedule's first; past its end the engine's when a command is pending (the completion is
taken in the end, R40), else the host's (log 3). -/
def nextTurn (s : State) : Turn :=
  match s.env.schedule with
  | [] => if busy s then .engine else .host
  | turn :: _ => turn

/-- The state with the turn taken off the schedule. -/
def dropTurn (s : State) : State :=
  { s with env := { s.env with schedule := s.env.schedule.tail } }

end Sys2Proof.Machine
end

