-- ==== Sys2Proof/Machine/Step.lean ====
section
/-! DEFINITION. One step of the machine: the next turn of the run (R60). -/

namespace Sys2Proof.Machine

/-- One step: the next turn is taken off the schedule and taken. -/
def step (s : State) : Host.Outcome State Fault Refusal :=
  takeTurn (nextTurn s) (dropTurn s)

/-- The state in which the word stands in PEND, as acceptance leaves it (R39), and the engine's turn is next: the next
step completes that word. -/
def State.withFetchWord (s : State) (nbits w : Nat) : State :=
  let s' := accept (BitVec.ofNat 32 (w % 2 ^ nbits)) s
  { s' with env := { s'.env with schedule := .engine :: s'.env.schedule } }

end Sys2Proof.Machine
end

