-- ==== Sys2Proof/Safety.lean ====
section
/-! DEFINITION. What counts as a good state and a safe run, in the terms claims use. -/

namespace Sys2Proof.Machine

/-- R37: while a context is installed, every entry of the table is the pad with its top p bits cleared. -/
def ContextInv (s : State) : Prop :=
  s.ctxv = true → ∀ p : Fin 128, s.mp[p] = s.pad &&& ~~~ maskRom p

/-- The key buffer holds zeros from position KEYCNT on (from R30, R31, R121, R122). -/
def KeybufInv (s : State) : Prop :=
  ∀ k : Fin 32, s.keycnt.toNat ≤ k.val → s.keybuf[k] = 0

/-- While an ANON word is pending, LATF is its family bit (R39). -/
def LatchInv (s : State) : Prop :=
  ∀ w, s.pend = some w → isAnon w = true → s.latf = w.extractLsb' 8 1

/-- What every state of a run satisfies. -/
structure EngineInv (s : State) : Prop where
  context : ContextInv s
  keybuf : KeybufInv s
  latch : LatchInv s

/-- The two states hold the same keyed context (R33). -/
def SameContext (s t : State) : Prop :=
  t.ctxv = s.ctxv ∧ t.ck = s.ck ∧ t.pad = s.pad ∧ t.mp = s.mp

/-- The two states differ at most in what no register and no command lets the host read (R43): KEYBUF, CK, PAD, MP, the
latches and the scratch registers. -/
def SameHostView (s t : State) : Prop :=
  t = { s with
    keybuf := t.keybuf, ck := t.ck, pad := t.pad, mp := t.mp, latv := t.latv, latf := t.latf, scratch := t.scratch }

/-- Bit j, counted from the top, of an n-bit value (R9). -/
def bitFromTop (n j : Nat) (v : Block) : Bool := v.getLsbD (n - 1 - j)

/-- The length of the longest common prefix of two n-bit values (R185). -/
def commonPrefix (n : Nat) (a b : Block) : Nat :=
  ((List.range n).takeWhile fun j => bitFromTop n j a == bitFromTop n j b).length

/-- The commands one after another, each completed in turn. -/
def runCommands : List Instr → State → Host.Outcome State Fault Refusal
  | [], s => .next s
  | i :: rest, s =>
    match exec i s with
    | .next t => runCommands rest t
    | .fault r => .fault r
    | .refused r => .refused r

/-- The operation is the host's branch, or an access inside the window. -/
def opInWindow (base : Nat) : HostOp → Bool
  | .read _ addr => (windowOffset base addr).isSome
  | .write _ addr _ => (windowOffset base addr).isSome
  | .bnz _ _ => true

/-- The operation is the host's branch, or an access that never gets an error response (R55, R56). -/
def opMapped (base : Nat) : HostOp → Bool
  | .read bits addr =>
    match windowOffset base addr with
    | some off => accessOk bits off && (regAt off).isSome
    | none => false
  | .write bits addr _ =>
    match windowOffset base addr with
    | some off =>
      accessOk bits off &&
        match regAt off with
        | some (.res _) => false
        | some _ => true
        | none => false
    | none => false
  | .bnz _ _ => true

/-- The host program makes only accesses that get no error response. -/
def HostProgramMapped (s : State) : Prop := ∀ op ∈ s.env.prog, opMapped s.env.base op = true

/-- The line writes no CMD word by hand: commands go through `issue` (R81, R240). -/
def noRawCommand : HostLine → Bool
  | .wr .cmd _ => false
  | _ => true

/-- The line does not write RES, which is read-only (R56). -/
def writesNoResult : HostLine → Bool
  | .wr (.res _) _ => false
  | _ => true

end Sys2Proof.Machine
end

