-- ==== Sys2Proof/Certificates/Slice0/Obligations.lean ====
section
/-! DEFINITION. The statements about the engine for the provers, each a `def Obligations.<Name> : Prop`. A docstring names the rule it formalises. A next state is written `{ s with … }`, so that every field not named is unchanged: that is the statement's frame. The engine has no byte memory (R6, R51). -/

open Sys2Proof Sys2Proof.Machine

/-! ### Reset -/

/-- R41: the engine's state after reset, row by row of the rule's table; the MASK ROM is a constant. -/
def Obligations.ResetLeavesEverythingZero : Prop :=
  statusWord State.reset = 0x00000000#32 ∧ busy State.reset = false ∧ State.reset.ctxv = false ∧
    State.reset.ovr = false ∧ State.reset.err = .ok ∧ State.reset.keycnt = 0 ∧ State.reset.din = 0 ∧ State.reset.res = 0 ∧
    (∀ k : Fin 32, State.reset.keybuf[k] = 0) ∧ (∀ k : Fin 16, State.reset.ck[k] = 0) ∧ State.reset.pad = 0 ∧
    (∀ p : Fin 128, State.reset.mp[p] = 0) ∧ State.reset.pend = none ∧ State.reset.latv = 0 ∧ State.reset.latf = 0 ∧
    State.reset.scratch.i = 0 ∧ State.reset.scratch.acc = 0 ∧ State.reset.scratch.cand = 0 ∧
    (∀ p b : Fin 128, (maskRom p).getLsbD b.val = decide (128 ≤ b.val + p.val))

/-- R231: the reset step gives every piece of the engine's state its reset value, whatever is pending.
That the reset input's turn stands in the schedule, and that the host and the model's counter stay, is the model's (log 3, log 20). -/
def Obligations.ResetAbandonsPendingCommand : Prop :=
  ∀ (s : State) (rest : List Turn), s.env.schedule = .reset :: rest →
    step s = .next { State.reset with draws := s.draws, env := { s.env with schedule := rest } }

/-! ### STATUS and the register window -/

/-- R25: every field of the STATUS word, in every state. -/
def Obligations.StatusWordFields : Prop :=
  ∀ s : State,
    (statusWord s).getLsbD 0 = s.pend.isSome ∧ (statusWord s).getLsbD 1 = s.ctxv ∧ (statusWord s).getLsbD 2 = false ∧
      (statusWord s).getLsbD 3 = s.ovr ∧ (statusWord s).extractLsb' 4 4 = errCode s.err ∧
      (statusWord s).extractLsb' 8 8 = s.keycnt ∧ (statusWord s).extractLsb' 16 16 = 0#16 ∧ errCode s.err ≤ 3#4

/-- R52, R53, R24: what an aligned 32-bit read of each mapped register answers. -/
def Obligations.MappedReads : Prop :=
  ∀ s : State, busRead s 32 0x00 = some 0x00000000#32 ∧ busRead s 32 0x04 = some (statusWord s) ∧
    ∀ k : Fin 4, busRead s 32 (0x10 + 4 * k.val) = some (s.din.extractLsb' (32 * k.val) 32) ∧
      busRead s 32 (0x20 + 4 * k.val) = some (s.res.extractLsb' (32 * k.val) 32)

/-- R55, R56, R206: which accesses get an error response, of all widths and offsets. -/
def Obligations.ErrorResponsesExactly : Prop :=
  ∀ (s : State) (bits off : Nat) (v : Word),
    (busRead s bits off = none ↔
      ¬(bits = 32 ∧ off ∈ [0x00, 0x04, 0x10, 0x14, 0x18, 0x1C, 0x20, 0x24, 0x28, 0x2C])) ∧
    (busWrite bits off v s = none ↔ ¬(bits = 32 ∧ off ∈ [0x00, 0x04, 0x10, 0x14, 0x18, 0x1C]))

/-- R57, R22: a write of DINk replaces its 32 bits and nothing else, and a read gives the value last written. -/
def Obligations.DinWriteReplacesOneWord : Prop :=
  ∀ (s : State) (k : Fin 4) (v : Word), ∃ d : Block,
    busWrite 32 (0x10 + 4 * k.val) v s = some { s with din := d } ∧
      ∀ j : Fin 4, busRead { s with din := d } 32 (0x10 + 4 * j.val) =
        some (if j = k then v else s.din.extractLsb' (32 * j.val) 32)

/-- R39: a CMD write is accepted exactly when BUSY = 0, and acceptance of an ANON word latches DIN and FAM. -/
def Obligations.AcceptanceLatches : Prop :=
  ∀ (s : State) (w : Word),
    (s.pend = none → (decode w = .command .anon4 ∨ decode w = .command .anon6) →
      busWrite 32 0x00 w s = some { s with pend := some w, latv := s.din, latf := w.extractLsb' 8 1 }) ∧
    (s.pend = none → ¬(decode w = .command .anon4 ∨ decode w = .command .anon6) →
      busWrite 32 0x00 w s = some { s with pend := some w }) ∧
    (s.pend ≠ none → ∃ t, busWrite 32 0x00 w s = some t ∧ t.pend = s.pend)

/-- R204: a CMD write while BUSY sets OVR and nothing else, the pending command completes as without it, and nothing else
sets OVR. -/
def Obligations.OverrunRule : Prop :=
  (∀ (s : State) (w : Word), s.pend ≠ none → busWrite 32 0x00 w s = some { s with ovr := true }) ∧
  (∀ (i : Instr) (s t : State), exec i s = .next t → exec i { s with ovr := true } = .next { t with ovr := true }) ∧
  (∀ s t : State, step s = .next t → s.ovr = false → t.ovr = true →
    nextTurn s = .host ∧ s.pend ≠ none ∧ ∃ w, s.env.prog[s.env.hpc]? = some (.write 32 (s.env.base + 0x00) w))

/-- R205: OVR is cleared by a STATUS write with bit 3 set, which does nothing else; by reset; and by no command. -/
def Obligations.OverrunCleared : Prop :=
  (∀ (s : State) (v : Word),
    busWrite 32 0x04 v s = some { s with ovr := if v.getLsbD 3 then false else s.ovr }) ∧
  (∀ (i : Instr) (s t : State), exec i s = .next t → t.ovr = s.ovr) ∧
  (∀ s t : State, step s = .next t → nextTurn s = .reset → t.ovr = false)

/-! ### The host's turn -/

/-- R80, R57: a host read of a register puts its value in `t` and changes nothing of the engine. The host's position, its
trace and the schedule are the model's (log 3, log 5), and so is it that every access to the window reaches the engine, where
R213 leaves open whether the platform restricts it (log 21). -/
def Obligations.HostReadStep : Prop :=
  ∀ (s : State) (rest : List Turn) (r : Reg), s.env.schedule = .host :: rest →
    s.env.prog[s.env.hpc]? = some (.read 32 (s.env.base + regOffset r)) →
    step s = .next { s with env := { s.env with
      schedule := rest, hpc := s.env.hpc + 1, t := readReg s r, trace := .data (readReg s r) :: s.env.trace } }

/-- R80, R60: a host write of a register does to the engine what the register window does with it. The host's position, its
trace and the schedule are the model's (log 3, log 5), and so is it that every access to the window reaches the engine, where
R213 leaves open whether the platform restricts it (log 21). -/
def Obligations.HostWriteStep : Prop :=
  ∀ (s u : State) (rest : List Turn) (off : Nat) (v : Word), s.env.schedule = .host :: rest →
    s.env.prog[s.env.hpc]? = some (.write 32 (s.env.base + off) v) → busWrite 32 off v s = some u →
    step s = .next { u with env := { s.env with
      schedule := rest, hpc := s.env.hpc + 1, trace := .done :: s.env.trace } }

/-- R80: `bnz t & m, n` is taken exactly when `t & m ≠ 0`. The host's position and the schedule are the model's (log 3,
log 5). -/
def Obligations.HostBranchStep : Prop :=
  ∀ (s : State) (rest : List Turn) (m : Word) (n : Nat), s.env.schedule = .host :: rest →
    s.env.prog[s.env.hpc]? = some (.bnz m n) →
    (s.env.t &&& m ≠ 0 → step s = .next { s with env := { s.env with schedule := rest, hpc := n } }) ∧
    (s.env.t &&& m = 0 → step s = .next { s with env := { s.env with schedule := rest, hpc := s.env.hpc + 1 } })

/-- R206: an access that gets an error response changes no engine state and does not affect a pending command. What the host
does then is the model's choice of a parameter (log 7, after I10): it faults, or it goes on. So are the
host's position, its trace and the schedule (log 3, log 5), and that the platform restricts no access to the window (log 21). -/
def Obligations.BusErrorChangesNoEngineState : Prop :=
  ∀ (s : State) (rest : List Turn) (op : HostOp) (bits addr off : Nat) (v : Word),
    s.env.schedule = .host :: rest → s.env.prog[s.env.hpc]? = some op → windowOffset s.env.base addr = some off →
    (op = .read bits addr ∧ busRead s bits off = none ∨ op = .write bits addr v ∧ busWrite bits off v s = none) →
    (s.env.onBusError = .fault → step s = .fault .busError) ∧
    (s.env.onBusError = .resume → ∃ x n, step s = .next { s with
      draws := n
      env := { s.env with schedule := rest, hpc := s.env.hpc + 1, t := x, trace := .error :: s.env.trace } })

/-- The model's choice (log 14): an access that starts outside the 64-byte window (R51), whatever its width, is refused by
name. -/
def Obligations.OutsideWindowRefused : Prop :=
  ∀ (s : State) (rest : List Turn) (bits addr : Nat) (v : Word), s.env.schedule = .host :: rest →
    (addr < s.env.base ∨ s.env.base + 64 ≤ addr) →
    (s.env.prog[s.env.hpc]? = some (.read bits addr) ∨ s.env.prog[s.env.hpc]? = some (.write bits addr v)) →
    step s = .refused .outsideWindow

/-! ### The engine's turn and the encoding -/

/-- R40: the engine's step completes the pending command. That the engine's turn is next is the schedule's to say (log 3). -/
def Obligations.StepRunsDecodedCommand : Prop :=
  ∀ (s : State) (w : Word) (i : Instr), s.pend = some w → decode w = .command i → i.wf = true →
    (s.env.schedule = [] → step s = exec i s) ∧
    (∀ rest, s.env.schedule = .engine :: rest → step s = exec i { s with env := { s.env with schedule := rest } })

/-- R202: the completion of an illegal word changes ERR, BUSY and PEND and nothing else. -/
def Obligations.IllegalWordCompletes : Prop :=
  ∀ (s : State) (w : Word) (why : Illegal), s.pend = some w → decode w = .illegal why →
    engineTurn s = .next { s with err := .illegalCommand, pend := none } ∧
      (statusWord { s with err := .illegalCommand, pend := none }).extractLsb' 4 4 = 3#4 ∧
      (statusWord { s with err := .illegalCommand, pend := none }).getLsbD 0 = false

/-- R82 and the table of 95_test_vectors.md section 5.1: a word of each command, and illegal words of each kind. -/
def Obligations.SpecWordsDecode : Prop :=
  decode 0x00000000#32 = .command .nop ∧ decode 0x00000001#32 = .command .keyclr ∧
    decode 0x00001F02#32 = .command (.keyb 0x1F#8) ∧ decode 0x0000FF02#32 = .command (.keyb 0xFF#8) ∧
    decode 0x00000003#32 = .command .build ∧ decode 0x00000004#32 = .command .anon4 ∧
    decode 0x00000104#32 = .command .anon6 ∧ decode 0x00010004#32 = .illegal .reserved ∧
    decode 0x00000005#32 = .illegal .opcode ∧ decode 0x00000103#32 = .illegal .argument ∧
    decode 0x00000204#32 = .illegal .family

/-- R76, R82: decode and encode agree in both directions, for every command and every word. -/
def Obligations.DecodeEncodeAgree : Prop :=
  (∀ i : Instr, i.wf = true → decode (encode i) = .command i) ∧
  (∀ (w : Word) (i : Instr), decode w = .command i → encode i = w)

/-- R76: exactly 261 words are legal. -/
def Obligations.LegalWordCount : Prop :=
  Nat.card { w : Word // ∃ i, decode w = .command i } = 261

/-- R77: which words are illegal, by their fields. -/
def Obligations.IllegalWordsByField : Prop :=
  ∀ w : Word, (∃ why, decode w = .illegal why) ↔
    (w.extractLsb' 16 16 ≠ 0#16 ∨ 0x04#8 < w.extractLsb' 0 8 ∨
      ((w.extractLsb' 0 8 = 0x00#8 ∨ w.extractLsb' 0 8 = 0x01#8 ∨ w.extractLsb' 0 8 = 0x03#8) ∧ w.extractLsb' 8 8 ≠ 0x00#8) ∨
      (w.extractLsb' 0 8 = 0x04#8 ∧ 0x01#8 < w.extractLsb' 8 8))

/-! ### NOP, KEYCLR, KEYB -/

/-- R120: NOP completes, and changes nothing but BUSY. -/
def Obligations.NopCompletes : Prop :=
  ∀ s : State, exec .nop s = .next { s with pend := none } ∧
    statusWord { s with pend := none } = statusWord s &&& 0xFFFFFFFE#32

/-- R121: KEYCLR completes: KEYBUF and KEYCNT are 0, ERR is 0, and nothing else changes. -/
def Obligations.KeyclrCompletes : Prop :=
  ∀ s : State, ∃ b : Bytes32, exec .keyclr s = .next { s with keybuf := b, keycnt := 0, err := .ok, pend := none } ∧
    ∀ k : Fin 32, b[k] = 0

/-- R122, R31: KEYB completes: the byte goes to position KEYCNT while there is one, KEYCNT counts and saturates at 255, ERR is
0, and nothing else changes. -/
def Obligations.KeybCompletes : Prop :=
  ∀ (s : State) (b : Byte), ∃ (buf : Bytes32) (n : BitVec 8),
    exec (.keyb b) s = .next { s with keybuf := buf, keycnt := n, err := .ok, pend := none } ∧
      n.toNat = min (s.keycnt.toNat + 1) 255 ∧
      ∀ k : Fin 32, buf[k] = if k.val = s.keycnt.toNat then b else s.keybuf[k]

/-- R30, R31, R122: after KEYCLR and any number of KEYB, the k-th of them has supplied `key[k−1]`, bytes from the 33rd on
are counted only, and the count saturates. -/
def Obligations.KeySequenceFillsBuffer : Prop :=
  ∀ (s : State) (bytes : List Byte), ∃ t,
    runCommands (.keyclr :: bytes.map .keyb) s = .next t ∧ t.keycnt.toNat = min bytes.length 255 ∧
      ∀ k : Fin 32, t.keybuf[k] = (bytes[k.val]?).getD 0

/-! ### BUILD -/

/-- R124, R126, R127, R130 to R133: BUILD with 32 key bytes completes and installs the whole context, whatever context there
was, and changes nothing else. -/
def Obligations.BuildInstallsContext : Prop :=
  ∀ s : State, s.keycnt = 32 → ∃ (ck seed : Bytes16) (mp : Vector Block 128),
    exec .build s = .next { s with
      ck := ck, pad := be128 (Config.E ck seed), mp := mp, ctxv := true, err := .ok, pend := none } ∧
    (∀ j : Fin 16, ck[j] = s.keybuf[j.val] ∧ seed[j] = s.keybuf[16 + j.val]) ∧
    ∀ p : Fin 128, mp[p] = be128 (Config.E ck seed) &&& ~~~ mask p.val

/-- R125: BUILD with any other number of bytes fails with KeyLengthError and changes nothing else. -/
def Obligations.BuildKeyLengthError : Prop :=
  ∀ s : State, s.keycnt ≠ 32 → exec .build s = .next { s with err := .keyLength, pend := none } ∧
    (statusWord { s with err := .keyLength, pend := none }).extractLsb' 4 4 = 1#4

/-- R31, R125: for a key of any length, loaded byte by byte, BUILD succeeds exactly when it has 32 bytes, and otherwise leaves
the context as it was. -/
def Obligations.BuildAcceptsExactlyThirtyTwoBytes : Prop :=
  ∀ (s : State) (bytes : List Byte), ∃ t,
    runCommands (.keyclr :: bytes.map .keyb ++ [.build]) s = .next t ∧
      (bytes.length = 32 → t.err = .ok ∧ t.ctxv = true) ∧
      (bytes.length ≠ 32 → t.err = .keyLength ∧ SameContext s t)

/-- R128: BUILD leaves KEYBUF, KEYCNT, DIN and RES, whatever its outcome, and a second BUILD gives the same context. -/
def Obligations.BuildKeepsKeyAndRepeats : Prop :=
  (∀ s t : State, exec .build s = .next t →
    t.keybuf = s.keybuf ∧ t.keycnt = s.keycnt ∧ t.din = s.din ∧ t.res = s.res) ∧
  (∀ s : State, s.keycnt = 32 → ∃ t, exec .build s = .next t ∧ exec .build t = .next t)

/-- R135: the shape of every entry of the table BUILD installs. -/
def Obligations.MaskedPadShape : Prop :=
  ∀ s t : State, s.keycnt = 32 → exec .build s = .next t →
    t.mp[0] = t.pad ∧
    ∀ p : Fin 128, t.mp[p] &&& maskRom p = 0 ∧
      ∀ b, b < 128 → t.mp[p].getLsbD b = if b < 128 - p.val then t.pad.getLsbD b else false

/-! ### The cipher interface -/

/-- R11, R54: `be128` and `unbe128` are big-endian and inverse to each other. -/
def Obligations.CipherByteOrder : Prop :=
  ∀ (b : Bytes16) (v : Block), unbe128 (be128 b) = b ∧ be128 (unbe128 v) = v ∧
    (∀ k : Fin 16, (unbe128 v)[k] = v.extractLsb' (120 - 8 * k.val) 8) ∧
    (be128 b).toNat = ∑ k : Fin 16, b[k].toNat * 2 ^ (8 * (15 - k.val))

/-- R105: the candidate's packing and the one bit kept of the primitive's output, for every primitive. -/
def Obligations.CalcKeepsTopBit : Prop :=
  ∀ (E : Bytes16 → Bytes16 → Bytes16) (ck : Bytes16) (c : Block),
    (unbe128 c)[0] = c.extractLsb' 120 8 ∧
      (calcBit E ck c).getLsbD 0 = (be128 (E ck (unbe128 c))).getLsbD 127 ∧
      (calcBit E ck c).getLsbD 0 = ((E ck (unbe128 c))[0]).getLsbD 7

/-! ### ANON4 and ANON6 -/

/-- R178, R170 to R177, R184: ANON4 with a context completes; each of the 32 result bits is the address bit XOR the bit of its
candidate; RES[127:32] = 0; and nothing else changes but ERR, BUSY and the scratch registers (free values, log 11). -/
def Obligations.Anon4Completes : Prop :=
  ∀ s : State, s.ctxv = true → ∃ (r : Block) (c : Scratch) (n : Nat),
    exec .anon4 s = .next { s with res := r, scratch := c, draws := n, err := .ok, pend := none } ∧
    r.extractLsb' 32 96 = 0 ∧
    ∀ j : Fin 32, r.getLsbD (31 - j.val) =
      xor (s.latv.getLsbD (31 - j.val))
        ((calcBit Config.E s.ck
          ((BitVec.setWidth 128 (s.latv.extractLsb' 0 32) <<< 96 &&& mask j.val) ||| s.mp[j.val])).getLsbD 0)

/-- R179, R170 to R177, R184: ANON6 with a context completes; each of the 128 result bits is the address bit XOR the bit of its
candidate; and nothing else changes but ERR, BUSY and the scratch registers (free values, log 11). -/
def Obligations.Anon6Completes : Prop :=
  ∀ s : State, s.ctxv = true → ∃ (r : Block) (c : Scratch) (n : Nat),
    exec .anon6 s = .next { s with res := r, scratch := c, draws := n, err := .ok, pend := none } ∧
    ∀ j : Fin 128, r.getLsbD (127 - j.val) =
      xor (s.latv.getLsbD (127 - j.val))
        ((calcBit Config.E s.ck ((s.latv &&& mask j.val) ||| s.mp[j.val])).getLsbD 0)

/-- R180: without a context both ANON commands fail with NoContext and change nothing else. -/
def Obligations.AnonWithoutContext : Prop :=
  ∀ s : State, s.ctxv = false →
    exec .anon4 s = .next { s with err := .noContext, pend := none } ∧
    exec .anon6 s = .next { s with err := .noContext, pend := none } ∧
    (statusWord { s with err := .noContext, pend := none }).extractLsb' 4 4 = 2#4

/-- R181: a candidate is the first i bits of the aligned value and then pad bits. -/
def Obligations.CandidateShape : Prop :=
  ∀ (s : State) (f : Family), s.ctxv = true → ContextInv s →
    candidate s.mp (alignedValue f s.latv) 0 = s.pad ∧
    ∀ (i : Fin 128) (b : Nat), b < 128 →
      (candidate s.mp (alignedValue f s.latv) i).getLsbD b =
        if b < 128 - i.val then s.pad.getLsbD b else (alignedValue f s.latv).getLsbD b

/-- R182: the low 96 bits of every IPv4 candidate are the pad's. -/
def Obligations.Ipv4CandidateLowBits : Prop :=
  ∀ s : State, s.ctxv = true → ContextInv s → (alignedValue .v4 s.latv).extractLsb' 0 96 = 0 ∧
    ∀ i : Fin 128, i.val ≤ 31 →
      (candidate s.mp (alignedValue .v4 s.latv) i).extractLsb' 0 96 = s.pad.extractLsb' 0 96

/-- R183: after n iterations the accumulator has n bits, and for IPv4 the XOR at the native width equals the XOR at the
aligned width shifted back. -/
def Obligations.XorWidth : Prop :=
  ∀ (E : Bytes16 → Bytes16 → Bytes16) (s : State),
    (accumulated E .v4 s).extractLsb' 32 96 = 0 ∧
    anonResult E .v4 s =
      BitVec.setWidth 128
        ((((accumulated E .v4 s <<< 96) ^^^ alignedValue .v4 s.latv) >>> 96).extractLsb' 0 32) ∧
    anonResult E .v6 s = accumulated E .v6 s ^^^ s.latv

/-- R185: two inputs of one family under one context have results whose longest common prefix is exactly as long as theirs. -/
def Obligations.PrefixPreservation : Prop :=
  ∀ s₁ s₂ t₁ t₂ : State, s₁.ctxv = true → SameContext s₁ s₂ →
    (exec .anon4 s₁ = .next t₁ → exec .anon4 s₂ = .next t₂ →
      commonPrefix 32 t₁.res t₂.res = commonPrefix 32 s₁.latv s₂.latv) ∧
    (exec .anon6 s₁ = .next t₁ → exec .anon6 s₂ = .next t₂ →
      commonPrefix 128 t₁.res t₂.res = commonPrefix 128 s₁.latv s₂.latv)

/-- R186: for a fixed context, each family's map from address to result is a bijection of its n-bit values. -/
def Obligations.AnonymizationIsBijection : Prop :=
  ∀ s : State, s.ctxv = true →
    (∀ r : BitVec 32, ∃! v : BitVec 32, ∃ t,
      exec .anon4 { s with latv := BitVec.setWidth 128 v } = .next t ∧ t.res = BitVec.setWidth 128 r) ∧
    (∀ r : Block, ∃! v : Block, ∃ t, exec .anon6 { s with latv := v } = .next t ∧ t.res = r)

/-- R191: the IPv4 result of x is the top of the IPv6 result of any value whose top 32 bits are x. -/
def Obligations.Ipv4ResultIsPrefixOfIpv6Result : Prop :=
  ∀ s₁ s₂ t₁ t₂ : State, s₁.ctxv = true → SameContext s₁ s₂ → s₂.latv.extractLsb' 96 32 = s₁.latv.extractLsb' 0 32 →
    exec .anon4 s₁ = .next t₁ → exec .anon6 s₂ = .next t₂ → t₁.res.extractLsb' 0 32 = t₂.res.extractLsb' 96 32

/-- R187, R188, R172: the result depends only on CK, PAD, the family and the original value; for IPv4, LATV[127:32] takes part
in nothing. -/
def Obligations.ResultDependsOnContextAndAddress : Prop :=
  ∀ s₁ s₂ t₁ t₂ : State, s₁.ctxv = true → s₂.ctxv = true → ContextInv s₁ → ContextInv s₂ →
    s₂.ck = s₁.ck → s₂.pad = s₁.pad →
    (s₂.latv.extractLsb' 0 32 = s₁.latv.extractLsb' 0 32 →
      exec .anon4 s₁ = .next t₁ → exec .anon4 s₂ = .next t₂ → t₂.res = t₁.res) ∧
    (s₂.latv = s₁.latv →
      exec .anon6 s₁ = .next t₁ → exec .anon6 s₂ = .next t₂ → t₂.res = t₁.res)

/-! ### Invariants and whole-machine rules -/

/-- R37, R41: the invariant holds right after reset. -/
def Obligations.InvariantHoldsAtReset : Prop := EngineInv State.reset

/-- R37, and the invariants drawn from R30, R31, R122 and R39: every step keeps them, from every state that meets them. -/
def Obligations.StepKeepsInvariant : Prop :=
  ∀ s t : State, EngineInv s → step s = .next t → EngineInv t

/-- R33, R136: the context changes only when a BUILD with 32 bytes completes, or by reset. -/
def Obligations.ContextChangesOnlyByBuild : Prop :=
  ∀ s t : State, step s = .next t → ¬SameContext s t →
    nextTurn s = .reset ∨
      nextTurn s = .engine ∧ s.keycnt = 32 ∧ t.ctxv = true ∧ ∃ w, s.pend = some w ∧ decode w = .command .build

/-- R23: RES changes only when an ANON command with a context completes, or by reset. -/
def Obligations.ResultChangesOnlyByAnon : Prop :=
  ∀ s t : State, step s = .next t → t.res ≠ s.res →
    nextTurn s = .reset ∨
      nextTurn s = .engine ∧ s.ctxv = true ∧
        ∃ w, s.pend = some w ∧ (decode w = .command .anon4 ∨ decode w = .command .anon6)

/-- R27: ERR changes only when a command other than NOP, or an illegal word, completes, or by reset. -/
def Obligations.ErrorCodeChangesOnlyAtCompletion : Prop :=
  ∀ s t : State, step s = .next t → t.err ≠ s.err →
    nextTurn s = .reset ∨
      nextTurn s = .engine ∧ t.pend = none ∧ ∃ w, s.pend = some w ∧ decode w ≠ .command .nop

/-- R30, R31: KEYBUF and KEYCNT change only when KEYB or KEYCLR completes, or by reset. -/
def Obligations.KeyChangesOnlyByKeyCommands : Prop :=
  ∀ s t : State, step s = .next t → (t.keybuf ≠ s.keybuf ∨ t.keycnt ≠ s.keycnt) →
    nextTurn s = .reset ∨
      nextTurn s = .engine ∧
        ∃ w, s.pend = some w ∧ (decode w = .command .keyclr ∨ ∃ b, decode w = .command (.keyb b))

/-- R22, R39: DIN changes only by a host write of one of its words, LATV and LATF only by acceptance, or by reset. -/
def Obligations.InputsChangeOnlyByHost : Prop :=
  ∀ s t : State, step s = .next t →
    (t.din ≠ s.din → nextTurn s = .reset ∨
      nextTurn s = .host ∧ ∃ (k : Fin 4) (v : Word),
        s.env.prog[s.env.hpc]? = some (.write 32 (s.env.base + 0x10 + 4 * k.val) v)) ∧
    ((t.latv ≠ s.latv ∨ t.latf ≠ s.latf) → nextTurn s = .reset ∨
      nextTurn s = .host ∧ s.pend = none ∧ t.latv = s.din ∧ ∃ w, t.pend = some w ∧ isAnon w = true)

/-- R212, R204: a pending command is neither replaced nor cancelled: it stays until the engine completes it, or a reset. -/
def Obligations.PendingNeverCancelled : Prop :=
  ∀ (s t : State) (w : Word), step s = .next t → s.pend = some w →
    (nextTurn s = .host → t.pend = some w) ∧ (nextTurn s = .engine → t.pend = none)

/-- R43: outside the completion of an ANON command with a context, what the host cannot read influences nothing the host can
observe: two runs that differ only in it take the same step and still differ only in it. -/
def Obligations.HiddenStateStaysHidden : Prop :=
  ∀ s s' : State, SameHostView s s' →
    ¬(nextTurn s = .engine ∧ s.ctxv = true ∧ ∃ w, s.pend = some w ∧ isAnon w = true) →
    (∀ t, step s = .next t → ∃ t', step s' = .next t' ∧ SameHostView t t') ∧
    (∀ r, step s = .fault r → step s' = .fault r) ∧
    (∀ r, step s = .refused r → step s' = .refused r)

/-- R40, the fairness assumption as the model has it (log 3): a schedule without a reset comes, within its length, to the
completion of the pending word, when no access of the host stops the run. The schedule, a host past its program that passes its turn,
and a platform that restricts no access to the window are the model's (log 3, log 5, log 19, log 21). -/
def Obligations.PendingCommandReachesCompletion : Prop :=
  ∀ (s : State) (w : Word), s.pend = some w → HostProgramMapped s → .reset ∉ s.env.schedule →
    ∃ k t, k ≤ s.env.schedule.length ∧ Sys2Proof.core.run k s = .next t ∧ t.pend = some w ∧ nextTurn t = .engine

/-- P4 of 95_test_vectors.md, R40, R60: a CMD write that races with a pending BUILD has both outcomes. The
schedule that orders the two, and that the write reaches the engine, are the model's (log 3, log 21). -/
def Obligations.OverrunRaceHasBothOutcomes : Prop :=
  ∀ (s : State) (rest : List Turn), s.pend = some 0x00000003#32 → s.keycnt = 32 →
    s.env.prog[s.env.hpc]? = some (.write 32 (s.env.base + 0x00) 0x00000004#32) →
    (s.env.schedule = .engine :: .host :: rest →
      ∃ t, Sys2Proof.core.run 2 s = .next t ∧ t.ctxv = true ∧ t.ovr = s.ovr ∧ t.pend = some 0x00000004#32) ∧
    (s.env.schedule = .host :: .engine :: rest →
      ∃ t, Sys2Proof.core.run 2 s = .next t ∧ t.ctxv = true ∧ t.ovr = true ∧ t.pend = none ∧ t.res = s.res)

/-- R58, R242: a completion that falls between two host reads of RES words gives the host words of two results. The
schedule, the trace, and that the reads reach the engine are the model's (log 3, log 5, log 21). -/
def Obligations.TornResultRead : Prop :=
  ∀ (s : State) (rest : List Turn), s.pend = some 0x00000104#32 → s.ctxv = true →
    s.env.schedule = .host :: .engine :: .host :: rest →
    s.env.prog[s.env.hpc]? = some (.read 32 (s.env.base + 0x20)) →
    s.env.prog[s.env.hpc + 1]? = some (.read 32 (s.env.base + 0x24)) →
    ∃ t u, exec .anon6 s = .next u ∧ Sys2Proof.core.run 3 s = .next t ∧ t.res = u.res ∧
      t.env.trace = .data (u.res.extractLsb' 32 32) :: .data (s.res.extractLsb' 0 32) :: s.env.trace

/-! ### Host programs -/

/-- R80, R81: each line's expansion stands in the assembled program at the position its label resolves to. Labels as line
numbers are the model's (log 15). -/
def Obligations.AssembledLinesStandAtTheirLabels : Prop :=
  ∀ (base : Nat) (p : List HostLine) (n : Nat) (l : HostLine), p[n]? = some l →
    ((assemble base p).drop (lineStart p n)).take (lineSize l) = lineOps base p (lineStart p n) l

/-- R56, R81: a host program in the spec's notation that does not write RES gets no error response of the
engine. The program as lines of data is the model's (log 15), and so is a platform that restricts no access to the window and
gives no error response of its own (log 21). -/
def Obligations.AssembledProgramsAreMapped : Prop :=
  ∀ (base : Nat) (p : List HostLine), (∀ l ∈ p, writesNoResult l = true) →
    ∀ op ∈ assemble base p, opMapped base op = true

/-- The model's choice in part (log 3, log 5, log 19, log 21), after R211 and R206: with a host program that makes no access
that gets an error response, the machine never stops. That a completion raises no failure of its own is R211, and that only
R206's accesses get an error response is R206. That every access to the window is answered, where R213 leaves open whether the
platform restricts it, is log 21; that a turn is taken off a schedule is log 3; that a host past its program passes its turn is
log 5, and an idle engine log 19. -/
def Obligations.MappedProgramNeverStops : Prop :=
  ∀ s : State, HostProgramMapped s → ∃ t, step s = .next t ∧ HostProgramMapped t

/-- R240, R81: a host program that writes CMD only through `issue` never overruns, whatever the latencies, the branches and
the resets. The schedule, the host in the state, the program as lines of data, and a platform on which every access to the
window reaches the engine are the model's (log 3, log 5, log 15, log 21). -/
def Obligations.IssueNeverOverruns : Prop :=
  ∀ (p : List HostLine) (s t : State) (k : Nat), (∀ l ∈ p, noRawCommand l = true) →
    s.env.prog = assemble s.env.base p → s.env.hpc = 0 → s.ovr = false →
    Sys2Proof.core.run k s = .next t → t.ovr = false
end

