-- ==== Sys2Proof/Laws/State.lean ====
section
/-! SUPPORT. What each named update of the state does to each field: one lemma per field per update, so that no proof unfolds an update. -/

namespace Sys2Proof.Machine

variable (s : State)


/-! ### retire -/

@[simp] theorem retire_din : (retire s).din = s.din := rfl
@[simp] theorem retire_res : (retire s).res = s.res := rfl
@[simp] theorem retire_ctxv : (retire s).ctxv = s.ctxv := rfl
@[simp] theorem retire_ovr : (retire s).ovr = s.ovr := rfl
@[simp] theorem retire_err : (retire s).err = s.err := rfl
@[simp] theorem retire_keycnt : (retire s).keycnt = s.keycnt := rfl
@[simp] theorem retire_keybuf : (retire s).keybuf = s.keybuf := rfl
@[simp] theorem retire_ck : (retire s).ck = s.ck := rfl
@[simp] theorem retire_pad : (retire s).pad = s.pad := rfl
@[simp] theorem retire_mp : (retire s).mp = s.mp := rfl
@[simp] theorem retire_pend : (retire s).pend = none := rfl
@[simp] theorem retire_latv : (retire s).latv = s.latv := rfl
@[simp] theorem retire_latf : (retire s).latf = s.latf := rfl
@[simp] theorem retire_scratch : (retire s).scratch = s.scratch := rfl
@[simp] theorem retire_draws : (retire s).draws = s.draws := rfl
@[simp] theorem retire_env : (retire s).env = s.env := rfl

/-! ### succeed -/

@[simp] theorem succeed_din : (succeed s).din = s.din := rfl
@[simp] theorem succeed_res : (succeed s).res = s.res := rfl
@[simp] theorem succeed_ctxv : (succeed s).ctxv = s.ctxv := rfl
@[simp] theorem succeed_ovr : (succeed s).ovr = s.ovr := rfl
@[simp] theorem succeed_err : (succeed s).err = .ok := rfl
@[simp] theorem succeed_keycnt : (succeed s).keycnt = s.keycnt := rfl
@[simp] theorem succeed_keybuf : (succeed s).keybuf = s.keybuf := rfl
@[simp] theorem succeed_ck : (succeed s).ck = s.ck := rfl
@[simp] theorem succeed_pad : (succeed s).pad = s.pad := rfl
@[simp] theorem succeed_mp : (succeed s).mp = s.mp := rfl
@[simp] theorem succeed_pend : (succeed s).pend = none := rfl
@[simp] theorem succeed_latv : (succeed s).latv = s.latv := rfl
@[simp] theorem succeed_latf : (succeed s).latf = s.latf := rfl
@[simp] theorem succeed_scratch : (succeed s).scratch = s.scratch := rfl
@[simp] theorem succeed_draws : (succeed s).draws = s.draws := rfl
@[simp] theorem succeed_env : (succeed s).env = s.env := rfl

/-! ### raise -/

@[simp] theorem raise_din (e : ErrCode) : (raise e s).din = s.din := rfl
@[simp] theorem raise_res (e : ErrCode) : (raise e s).res = s.res := rfl
@[simp] theorem raise_ctxv (e : ErrCode) : (raise e s).ctxv = s.ctxv := rfl
@[simp] theorem raise_ovr (e : ErrCode) : (raise e s).ovr = s.ovr := rfl
@[simp] theorem raise_err (e : ErrCode) : (raise e s).err = e := rfl
@[simp] theorem raise_keycnt (e : ErrCode) : (raise e s).keycnt = s.keycnt := rfl
@[simp] theorem raise_keybuf (e : ErrCode) : (raise e s).keybuf = s.keybuf := rfl
@[simp] theorem raise_ck (e : ErrCode) : (raise e s).ck = s.ck := rfl
@[simp] theorem raise_pad (e : ErrCode) : (raise e s).pad = s.pad := rfl
@[simp] theorem raise_mp (e : ErrCode) : (raise e s).mp = s.mp := rfl
@[simp] theorem raise_pend (e : ErrCode) : (raise e s).pend = none := rfl
@[simp] theorem raise_latv (e : ErrCode) : (raise e s).latv = s.latv := rfl
@[simp] theorem raise_latf (e : ErrCode) : (raise e s).latf = s.latf := rfl
@[simp] theorem raise_scratch (e : ErrCode) : (raise e s).scratch = s.scratch := rfl
@[simp] theorem raise_draws (e : ErrCode) : (raise e s).draws = s.draws := rfl
@[simp] theorem raise_env (e : ErrCode) : (raise e s).env = s.env := rfl

/-! ### accept -/

@[simp] theorem accept_din (w : Word) : (accept w s).din = s.din := rfl
@[simp] theorem accept_res (w : Word) : (accept w s).res = s.res := rfl
@[simp] theorem accept_ctxv (w : Word) : (accept w s).ctxv = s.ctxv := rfl
@[simp] theorem accept_ovr (w : Word) : (accept w s).ovr = s.ovr := rfl
@[simp] theorem accept_err (w : Word) : (accept w s).err = s.err := rfl
@[simp] theorem accept_keycnt (w : Word) : (accept w s).keycnt = s.keycnt := rfl
@[simp] theorem accept_keybuf (w : Word) : (accept w s).keybuf = s.keybuf := rfl
@[simp] theorem accept_ck (w : Word) : (accept w s).ck = s.ck := rfl
@[simp] theorem accept_pad (w : Word) : (accept w s).pad = s.pad := rfl
@[simp] theorem accept_mp (w : Word) : (accept w s).mp = s.mp := rfl
@[simp] theorem accept_pend (w : Word) : (accept w s).pend = some w := rfl
@[simp] theorem accept_latv (w : Word) : (accept w s).latv = if isAnon w then s.din else s.latv := rfl
@[simp] theorem accept_latf (w : Word) : (accept w s).latf = if isAnon w then w.extractLsb' 8 1 else s.latf := rfl
@[simp] theorem accept_scratch (w : Word) : (accept w s).scratch = s.scratch := rfl
@[simp] theorem accept_draws (w : Word) : (accept w s).draws = s.draws := rfl
@[simp] theorem accept_env (w : Word) : (accept w s).env = s.env := rfl

/-! ### clearKey -/

@[simp] theorem clearKey_din : (clearKey s).din = s.din := rfl
@[simp] theorem clearKey_res : (clearKey s).res = s.res := rfl
@[simp] theorem clearKey_ctxv : (clearKey s).ctxv = s.ctxv := rfl
@[simp] theorem clearKey_ovr : (clearKey s).ovr = s.ovr := rfl
@[simp] theorem clearKey_err : (clearKey s).err = s.err := rfl
@[simp] theorem clearKey_keycnt : (clearKey s).keycnt = 0 := rfl
@[simp] theorem clearKey_keybuf : (clearKey s).keybuf = Vector.replicate 32 0 := rfl
@[simp] theorem clearKey_ck : (clearKey s).ck = s.ck := rfl
@[simp] theorem clearKey_pad : (clearKey s).pad = s.pad := rfl
@[simp] theorem clearKey_mp : (clearKey s).mp = s.mp := rfl
@[simp] theorem clearKey_pend : (clearKey s).pend = s.pend := rfl
@[simp] theorem clearKey_latv : (clearKey s).latv = s.latv := rfl
@[simp] theorem clearKey_latf : (clearKey s).latf = s.latf := rfl
@[simp] theorem clearKey_scratch : (clearKey s).scratch = s.scratch := rfl
@[simp] theorem clearKey_draws : (clearKey s).draws = s.draws := rfl
@[simp] theorem clearKey_env : (clearKey s).env = s.env := rfl

/-! ### appendKeyByte -/

@[simp] theorem appendKeyByte_din (b : Byte) : (appendKeyByte b s).din = s.din := rfl
@[simp] theorem appendKeyByte_res (b : Byte) : (appendKeyByte b s).res = s.res := rfl
@[simp] theorem appendKeyByte_ctxv (b : Byte) : (appendKeyByte b s).ctxv = s.ctxv := rfl
@[simp] theorem appendKeyByte_ovr (b : Byte) : (appendKeyByte b s).ovr = s.ovr := rfl
@[simp] theorem appendKeyByte_err (b : Byte) : (appendKeyByte b s).err = s.err := rfl
@[simp] theorem appendKeyByte_keycnt (b : Byte) : (appendKeyByte b s).keycnt = keycntSucc s.keycnt := rfl
@[simp] theorem appendKeyByte_keybuf (b : Byte) : (appendKeyByte b s).keybuf = if h : s.keycnt.toNat < 32 then s.keybuf.set s.keycnt.toNat b h else s.keybuf := rfl
@[simp] theorem appendKeyByte_ck (b : Byte) : (appendKeyByte b s).ck = s.ck := rfl
@[simp] theorem appendKeyByte_pad (b : Byte) : (appendKeyByte b s).pad = s.pad := rfl
@[simp] theorem appendKeyByte_mp (b : Byte) : (appendKeyByte b s).mp = s.mp := rfl
@[simp] theorem appendKeyByte_pend (b : Byte) : (appendKeyByte b s).pend = s.pend := rfl
@[simp] theorem appendKeyByte_latv (b : Byte) : (appendKeyByte b s).latv = s.latv := rfl
@[simp] theorem appendKeyByte_latf (b : Byte) : (appendKeyByte b s).latf = s.latf := rfl
@[simp] theorem appendKeyByte_scratch (b : Byte) : (appendKeyByte b s).scratch = s.scratch := rfl
@[simp] theorem appendKeyByte_draws (b : Byte) : (appendKeyByte b s).draws = s.draws := rfl
@[simp] theorem appendKeyByte_env (b : Byte) : (appendKeyByte b s).env = s.env := rfl

/-! ### installContext -/

@[simp] theorem installContext_din (E : Bytes16 → Bytes16 → Bytes16) : (installContext E s).din = s.din := rfl
@[simp] theorem installContext_res (E : Bytes16 → Bytes16 → Bytes16) : (installContext E s).res = s.res := rfl
@[simp] theorem installContext_ctxv (E : Bytes16 → Bytes16 → Bytes16) : (installContext E s).ctxv = true := rfl
@[simp] theorem installContext_ovr (E : Bytes16 → Bytes16 → Bytes16) : (installContext E s).ovr = s.ovr := rfl
@[simp] theorem installContext_err (E : Bytes16 → Bytes16 → Bytes16) : (installContext E s).err = s.err := rfl
@[simp] theorem installContext_keycnt (E : Bytes16 → Bytes16 → Bytes16) : (installContext E s).keycnt = s.keycnt := rfl
@[simp] theorem installContext_keybuf (E : Bytes16 → Bytes16 → Bytes16) : (installContext E s).keybuf = s.keybuf := rfl
@[simp] theorem installContext_ck (E : Bytes16 → Bytes16 → Bytes16) : (installContext E s).ck = cipherKey s.keybuf := rfl
@[simp] theorem installContext_pad (E : Bytes16 → Bytes16 → Bytes16) : (installContext E s).pad = padOf E s.keybuf := rfl
@[simp] theorem installContext_mp (E : Bytes16 → Bytes16 → Bytes16) : (installContext E s).mp = maskedPads (padOf E s.keybuf) := rfl
@[simp] theorem installContext_pend (E : Bytes16 → Bytes16 → Bytes16) : (installContext E s).pend = s.pend := rfl
@[simp] theorem installContext_latv (E : Bytes16 → Bytes16 → Bytes16) : (installContext E s).latv = s.latv := rfl
@[simp] theorem installContext_latf (E : Bytes16 → Bytes16 → Bytes16) : (installContext E s).latf = s.latf := rfl
@[simp] theorem installContext_scratch (E : Bytes16 → Bytes16 → Bytes16) : (installContext E s).scratch = s.scratch := rfl
@[simp] theorem installContext_draws (E : Bytes16 → Bytes16 → Bytes16) : (installContext E s).draws = s.draws := rfl
@[simp] theorem installContext_env (E : Bytes16 → Bytes16 → Bytes16) : (installContext E s).env = s.env := rfl

/-! ### finishAnon -/

@[simp] theorem finishAnon_din (E : Bytes16 → Bytes16 → Bytes16) (f : Family) : (finishAnon E f s).din = s.din := rfl
@[simp] theorem finishAnon_res (E : Bytes16 → Bytes16 → Bytes16) (f : Family) : (finishAnon E f s).res = anonResult E f s := rfl
@[simp] theorem finishAnon_ctxv (E : Bytes16 → Bytes16 → Bytes16) (f : Family) : (finishAnon E f s).ctxv = s.ctxv := rfl
@[simp] theorem finishAnon_ovr (E : Bytes16 → Bytes16 → Bytes16) (f : Family) : (finishAnon E f s).ovr = s.ovr := rfl
@[simp] theorem finishAnon_err (E : Bytes16 → Bytes16 → Bytes16) (f : Family) : (finishAnon E f s).err = s.err := rfl
@[simp] theorem finishAnon_keycnt (E : Bytes16 → Bytes16 → Bytes16) (f : Family) : (finishAnon E f s).keycnt = s.keycnt := rfl
@[simp] theorem finishAnon_keybuf (E : Bytes16 → Bytes16 → Bytes16) (f : Family) : (finishAnon E f s).keybuf = s.keybuf := rfl
@[simp] theorem finishAnon_ck (E : Bytes16 → Bytes16 → Bytes16) (f : Family) : (finishAnon E f s).ck = s.ck := rfl
@[simp] theorem finishAnon_pad (E : Bytes16 → Bytes16 → Bytes16) (f : Family) : (finishAnon E f s).pad = s.pad := rfl
@[simp] theorem finishAnon_mp (E : Bytes16 → Bytes16 → Bytes16) (f : Family) : (finishAnon E f s).mp = s.mp := rfl
@[simp] theorem finishAnon_pend (E : Bytes16 → Bytes16 → Bytes16) (f : Family) : (finishAnon E f s).pend = s.pend := rfl
@[simp] theorem finishAnon_latv (E : Bytes16 → Bytes16 → Bytes16) (f : Family) : (finishAnon E f s).latv = s.latv := rfl
@[simp] theorem finishAnon_latf (E : Bytes16 → Bytes16 → Bytes16) (f : Family) : (finishAnon E f s).latf = s.latf := rfl
@[simp] theorem finishAnon_scratch (E : Bytes16 → Bytes16 → Bytes16) (f : Family) : (finishAnon E f s).scratch = ⟨Config.scratchI s.draws, Config.scratchAcc s.draws, Config.scratchCand s.draws⟩ := rfl
@[simp] theorem finishAnon_draws (E : Bytes16 → Bytes16 → Bytes16) (f : Family) : (finishAnon E f s).draws = s.draws + 1 := rfl
@[simp] theorem finishAnon_env (E : Bytes16 → Bytes16 → Bytes16) (f : Family) : (finishAnon E f s).env = s.env := rfl

/-! ### hostAdvance -/

@[simp] theorem hostAdvance_din (r : BusReply) (t : Word) : (hostAdvance r t s).din = s.din := rfl
@[simp] theorem hostAdvance_res (r : BusReply) (t : Word) : (hostAdvance r t s).res = s.res := rfl
@[simp] theorem hostAdvance_ctxv (r : BusReply) (t : Word) : (hostAdvance r t s).ctxv = s.ctxv := rfl
@[simp] theorem hostAdvance_ovr (r : BusReply) (t : Word) : (hostAdvance r t s).ovr = s.ovr := rfl
@[simp] theorem hostAdvance_err (r : BusReply) (t : Word) : (hostAdvance r t s).err = s.err := rfl
@[simp] theorem hostAdvance_keycnt (r : BusReply) (t : Word) : (hostAdvance r t s).keycnt = s.keycnt := rfl
@[simp] theorem hostAdvance_keybuf (r : BusReply) (t : Word) : (hostAdvance r t s).keybuf = s.keybuf := rfl
@[simp] theorem hostAdvance_ck (r : BusReply) (t : Word) : (hostAdvance r t s).ck = s.ck := rfl
@[simp] theorem hostAdvance_pad (r : BusReply) (t : Word) : (hostAdvance r t s).pad = s.pad := rfl
@[simp] theorem hostAdvance_mp (r : BusReply) (t : Word) : (hostAdvance r t s).mp = s.mp := rfl
@[simp] theorem hostAdvance_pend (r : BusReply) (t : Word) : (hostAdvance r t s).pend = s.pend := rfl
@[simp] theorem hostAdvance_latv (r : BusReply) (t : Word) : (hostAdvance r t s).latv = s.latv := rfl
@[simp] theorem hostAdvance_latf (r : BusReply) (t : Word) : (hostAdvance r t s).latf = s.latf := rfl
@[simp] theorem hostAdvance_scratch (r : BusReply) (t : Word) : (hostAdvance r t s).scratch = s.scratch := rfl
@[simp] theorem hostAdvance_draws (r : BusReply) (t : Word) : (hostAdvance r t s).draws = s.draws := rfl
@[simp] theorem hostAdvance_env (r : BusReply) (t : Word) : (hostAdvance r t s).env = { s.env with hpc := s.env.hpc + 1, t := t, trace := r :: s.env.trace } := rfl

/-! ### hostBranch -/

@[simp] theorem hostBranch_din (m : Word) (n : Nat) : (hostBranch m n s).din = s.din := rfl
@[simp] theorem hostBranch_res (m : Word) (n : Nat) : (hostBranch m n s).res = s.res := rfl
@[simp] theorem hostBranch_ctxv (m : Word) (n : Nat) : (hostBranch m n s).ctxv = s.ctxv := rfl
@[simp] theorem hostBranch_ovr (m : Word) (n : Nat) : (hostBranch m n s).ovr = s.ovr := rfl
@[simp] theorem hostBranch_err (m : Word) (n : Nat) : (hostBranch m n s).err = s.err := rfl
@[simp] theorem hostBranch_keycnt (m : Word) (n : Nat) : (hostBranch m n s).keycnt = s.keycnt := rfl
@[simp] theorem hostBranch_keybuf (m : Word) (n : Nat) : (hostBranch m n s).keybuf = s.keybuf := rfl
@[simp] theorem hostBranch_ck (m : Word) (n : Nat) : (hostBranch m n s).ck = s.ck := rfl
@[simp] theorem hostBranch_pad (m : Word) (n : Nat) : (hostBranch m n s).pad = s.pad := rfl
@[simp] theorem hostBranch_mp (m : Word) (n : Nat) : (hostBranch m n s).mp = s.mp := rfl
@[simp] theorem hostBranch_pend (m : Word) (n : Nat) : (hostBranch m n s).pend = s.pend := rfl
@[simp] theorem hostBranch_latv (m : Word) (n : Nat) : (hostBranch m n s).latv = s.latv := rfl
@[simp] theorem hostBranch_latf (m : Word) (n : Nat) : (hostBranch m n s).latf = s.latf := rfl
@[simp] theorem hostBranch_scratch (m : Word) (n : Nat) : (hostBranch m n s).scratch = s.scratch := rfl
@[simp] theorem hostBranch_draws (m : Word) (n : Nat) : (hostBranch m n s).draws = s.draws := rfl
@[simp] theorem hostBranch_env (m : Word) (n : Nat) : (hostBranch m n s).env = { s.env with hpc := if s.env.t &&& m ≠ 0 then n else s.env.hpc + 1 } := rfl

/-! ### dropTurn -/

@[simp] theorem dropTurn_din : (dropTurn s).din = s.din := rfl
@[simp] theorem dropTurn_res : (dropTurn s).res = s.res := rfl
@[simp] theorem dropTurn_ctxv : (dropTurn s).ctxv = s.ctxv := rfl
@[simp] theorem dropTurn_ovr : (dropTurn s).ovr = s.ovr := rfl
@[simp] theorem dropTurn_err : (dropTurn s).err = s.err := rfl
@[simp] theorem dropTurn_keycnt : (dropTurn s).keycnt = s.keycnt := rfl
@[simp] theorem dropTurn_keybuf : (dropTurn s).keybuf = s.keybuf := rfl
@[simp] theorem dropTurn_ck : (dropTurn s).ck = s.ck := rfl
@[simp] theorem dropTurn_pad : (dropTurn s).pad = s.pad := rfl
@[simp] theorem dropTurn_mp : (dropTurn s).mp = s.mp := rfl
@[simp] theorem dropTurn_pend : (dropTurn s).pend = s.pend := rfl
@[simp] theorem dropTurn_latv : (dropTurn s).latv = s.latv := rfl
@[simp] theorem dropTurn_latf : (dropTurn s).latf = s.latf := rfl
@[simp] theorem dropTurn_scratch : (dropTurn s).scratch = s.scratch := rfl
@[simp] theorem dropTurn_draws : (dropTurn s).draws = s.draws := rfl
@[simp] theorem dropTurn_env : (dropTurn s).env = { s.env with schedule := s.env.schedule.tail } := rfl

/-! ### resetEngine -/

@[simp] theorem resetEngine_din : (resetEngine s).din = 0 := rfl
@[simp] theorem resetEngine_res : (resetEngine s).res = 0 := rfl
@[simp] theorem resetEngine_ctxv : (resetEngine s).ctxv = false := rfl
@[simp] theorem resetEngine_ovr : (resetEngine s).ovr = false := rfl
@[simp] theorem resetEngine_err : (resetEngine s).err = .ok := rfl
@[simp] theorem resetEngine_keycnt : (resetEngine s).keycnt = 0 := rfl
@[simp] theorem resetEngine_keybuf : (resetEngine s).keybuf = Vector.replicate 32 0 := rfl
@[simp] theorem resetEngine_ck : (resetEngine s).ck = Vector.replicate 16 0 := rfl
@[simp] theorem resetEngine_pad : (resetEngine s).pad = 0 := rfl
@[simp] theorem resetEngine_mp : (resetEngine s).mp = Vector.replicate 128 0 := rfl
@[simp] theorem resetEngine_pend : (resetEngine s).pend = none := rfl
@[simp] theorem resetEngine_latv : (resetEngine s).latv = 0 := rfl
@[simp] theorem resetEngine_latf : (resetEngine s).latf = 0 := rfl
@[simp] theorem resetEngine_scratch : (resetEngine s).scratch = Scratch.zero := rfl
@[simp] theorem resetEngine_draws : (resetEngine s).draws = s.draws := rfl
@[simp] theorem resetEngine_env : (resetEngine s).env = s.env := rfl

/-! ### the state after reset (R41) -/

@[simp] theorem reset_din : State.reset.din = 0 := rfl
@[simp] theorem reset_res : State.reset.res = 0 := rfl
@[simp] theorem reset_ctxv : State.reset.ctxv = false := rfl
@[simp] theorem reset_ovr : State.reset.ovr = false := rfl
@[simp] theorem reset_err : State.reset.err = .ok := rfl
@[simp] theorem reset_keycnt : State.reset.keycnt = 0 := rfl
@[simp] theorem reset_keybuf : State.reset.keybuf = Vector.replicate 32 0 := rfl
@[simp] theorem reset_ck : State.reset.ck = Vector.replicate 16 0 := rfl
@[simp] theorem reset_pad : State.reset.pad = 0 := rfl
@[simp] theorem reset_mp : State.reset.mp = Vector.replicate 128 0 := rfl
@[simp] theorem reset_pend : State.reset.pend = none := rfl
@[simp] theorem reset_latv : State.reset.latv = 0 := rfl
@[simp] theorem reset_latf : State.reset.latf = 0 := rfl
@[simp] theorem reset_scratch : State.reset.scratch = Scratch.zero := rfl
@[simp] theorem reset_draws : State.reset.draws = 0 := rfl
@[simp] theorem reset_env : State.reset.env = Env.empty := rfl

/-! ### BUSY (R26) -/

@[simp] theorem busy_retire : busy (retire s) = false := rfl
@[simp] theorem busy_succeed : busy (succeed s) = false := rfl
@[simp] theorem busy_raise (e : ErrCode) : busy (raise e s) = false := rfl
@[simp] theorem busy_accept (w : Word) : busy (accept w s) = true := rfl
@[simp] theorem busy_clearKey : busy (clearKey s) = busy s := rfl
@[simp] theorem busy_appendKeyByte (b : Byte) : busy (appendKeyByte b s) = busy s := rfl
@[simp] theorem busy_installContext (E : Bytes16 → Bytes16 → Bytes16) : busy (installContext E s) = busy s := rfl
@[simp] theorem busy_finishAnon (E : Bytes16 → Bytes16 → Bytes16) (f : Family) : busy (finishAnon E f s) = busy s := rfl
@[simp] theorem busy_hostAdvance (r : BusReply) (t : Word) : busy (hostAdvance r t s) = busy s := rfl
@[simp] theorem busy_hostBranch (m : Word) (n : Nat) : busy (hostBranch m n s) = busy s := rfl
@[simp] theorem busy_dropTurn : busy (dropTurn s) = busy s := rfl
@[simp] theorem busy_resetEngine : busy (resetEngine s) = false := rfl

end Sys2Proof.Machine
end

