-- ==== Sys2Proof/Laws/Bits.lean ====
section
/-! SUPPORT. The bits of the data path: masks (R12), candidates (R175) and the accumulator (R14, R176). -/

namespace Sys2Proof.Machine

/-- R12: bit b of mask p is set exactly when b is one of the top p bits. -/
theorem mask_getLsbD (p b : Nat) : (mask p).getLsbD b = decide (b < 128 ∧ 128 ≤ b + p) := by
  simp only [mask, BitVec.getLsbD_shiftLeft, BitVec.getLsbD_allOnes]
  by_cases h1 : b < 128 <;> by_cases h2 : 128 ≤ b + p <;> simp [h1, h2]
  omega

/-- R11: byte k of the string stands in bits 127−8k : 120−8k. -/
theorem bePart_getLsbD (b : Bytes16) (k : Fin 16) {i : Nat} (h : i < 128) :
    (bePart b k).getLsbD i = (decide (15 - i / 8 = k.val) && b[k].getLsbD (i % 8)) := by
  have hk := k.isLt
  simp only [bePart, BitVec.getLsbD_shiftLeft, BitVec.getLsbD_setWidth, h, decide_true, Bool.true_and]
  by_cases e : 15 - i / 8 = k.val
  · have e2 : i - 8 * (15 - k.val) = i % 8 := by omega
    simp [e, e2, show ¬ i < 8 * (15 - k.val) by omega, show i % 8 < 128 by omega]
  · by_cases h1 : i < 8 * (15 - k.val)
    · simp [h1, e]
    · simp [e, BitVec.getLsbD_of_ge b[k.val] (i - 8 * (15 - k.val)) (by omega)]

/-- R11: bit i of the big-endian reading is bit i % 8 of byte 15 − i / 8. -/
theorem be128_getLsbD (b : Bytes16) {i : Nat} (h : i < 128) :
    (be128 b).getLsbD i = (b[15 - i / 8]'(by omega)).getLsbD (i % 8) := by
  simp only [be128, BitVec.getLsbD_or, bePart_getLsbD b _ h]
  obtain ⟨m, hm⟩ : ∃ m, 15 - i / 8 = m := ⟨_, rfl⟩
  have h8 : m < 16 := by omega
  simp only [hm]
  interval_cases m <;> simp

/-- R11: byte k of the packed value is bits 127−8k : 120−8k. -/
theorem unbe128_getElem (v : Block) {k : Nat} (h : k < 16) : (unbe128 v)[k] = v.extractLsb' (120 - 8 * k) 8 := by
  simp [unbe128]

/-- R53, R57: bit i of a register after word k is replaced. -/
theorem setWord_getLsbD (v : Block) (k : Fin 4) (x : Word) {i : Nat} (h : i < 128) :
    (setWord v k x).getLsbD i = if i / 32 = k.val then x.getLsbD (i % 32) else v.getLsbD i := by
  have hk := k.isLt
  simp only [setWord, BitVec.getLsbD_or, BitVec.getLsbD_and, BitVec.getLsbD_not, BitVec.getLsbD_shiftLeft,
    BitVec.getLsbD_setWidth, BitVec.getLsbD_allOnes, h, decide_true, Bool.true_and]
  split
  · rename_i e
    have e2 : i - 32 * k.val = i % 32 := by omega
    simp [e2, show ¬ i < 32 * k.val by omega, show i % 32 < 32 by omega, show i % 32 < 128 by omega]
  · rename_i e
    by_cases h1 : i < 32 * k.val
    · simp [h1]
    · have h2 : ¬ i - 32 * k.val < 32 := by omega
      simp [h1, h2, BitVec.getLsbD_of_ge x _ (Nat.le_of_not_lt h2)]

/-- R175: bit b of a candidate comes from the address in the top i bits, and is joined by the table's bit. -/
theorem candidate_getLsbD (mp : Vector Block 128) (aligned : Block) (i : Fin 128) (b : Nat) :
    (candidate mp aligned i).getLsbD b = (aligned.getLsbD b && decide (128 ≤ b + i.val) || mp[i].getLsbD b) := by
  by_cases h : b < 128
  · simp only [candidate, maskRom, BitVec.getLsbD_or, BitVec.getLsbD_and, mask_getLsbD, h, true_and, Fin.getElem_fin]
  · simp [candidate, BitVec.getLsbD_of_ge _ _ (Nat.le_of_not_lt h)]

/-- R133: bit b of entry p of the table is the pad's bit below the top p bits, and 0 in them. -/
theorem maskedPads_getLsbD (pad : Block) (p : Fin 128) (b : Nat) :
    (maskedPads pad)[p].getLsbD b = (pad.getLsbD b && decide (b + p.val < 128)) := by
  by_cases h : b < 128
  · simp only [maskedPads, maskRom, Fin.getElem_fin, Vector.getElem_ofFn, BitVec.getLsbD_and, BitVec.getLsbD_not, mask_getLsbD, h]
    by_cases h2 : 128 ≤ b + p.val <;> simp [h2]
    omega
  · simp [maskedPads, BitVec.getLsbD_of_ge _ _ (Nat.le_of_not_lt h)]

section
variable (E : Bytes16 → Bytes16 → Bytes16) (ck : Bytes16) (mp : Vector Block 128) (aligned : Block) (c : Scratch)

/-- R28: after k iterations the index I is k. -/
theorem loop_i {k : Nat} (h : k ≤ 128) : (loop E ck mp aligned c k).i.val = k := by
  induction k with
  | zero => rfl
  | succ k ih =>
    have hk := ih (by omega)
    simp only [loop, iteration]
    rw [dif_pos (by omega)]
    simp [hk]

/-- R14, R176: after k iterations the accumulator holds the k bits `calc` gave, the first of them the highest, and zeros
above them. -/
theorem loop_acc_getLsbD {k : Nat} (h : k ≤ 128) (b : Nat) :
    (loop E ck mp aligned c k).acc.getLsbD b =
      if hb : b < k then (calcBit E ck (candidate mp aligned ⟨k - 1 - b, by omega⟩)).getLsbD 0 else false := by
  induction k generalizing b with
  | zero => simp [loop]
  | succ k ih =>
    have hi := loop_i E ck mp aligned c (k := k) (by omega)
    simp only [loop, iteration]
    rw [dif_pos (by omega)]
    simp only [BitVec.getLsbD_or, BitVec.getLsbD_shiftLeft, BitVec.getLsbD_setWidth, hi]
    rcases b with _ | b
    · simp
    · rw [show b + 1 - 1 = b by omega, ih (by omega)]
      have e : k + 1 - 1 - (b + 1) = k - 1 - b := by omega
      by_cases hb : b < k
      · simp only [e, hb, show b + 1 < 128 by omega]
        simp
        omega
      · simp [hb]

end

end Sys2Proof.Machine
end

