-- ==== Sys2Proof/Laws/Ops.lean ====
section
/-! SUPPORT. For each shared operation, once, everything it can do. -/

namespace Sys2Proof.Machine

open Host (Outcome)

/-! ### The commands (R40): every one completes -/

theorem exec_nop (s : State) : exec .nop s = .next (retire s) := rfl
theorem exec_keyclr (s : State) : exec .keyclr s = .next (succeed (clearKey s)) := rfl
theorem exec_keyb (b : Byte) (s : State) : exec (.keyb b) s = .next (succeed (appendKeyByte b s)) := rfl
theorem exec_build (s : State) : exec .build s = .next (buildWith Config.E s) := rfl
theorem exec_anon4 (s : State) : exec .anon4 s = .next (anonWith Config.E .v4 s) := rfl
theorem exec_anon6 (s : State) : exec .anon6 s = .next (anonWith Config.E .v6 s) := rfl

/-- No command stops the machine. -/
theorem exec_next (i : Instr) (s : State) : ∃ t, exec i s = .next t := by
  cases i <;> exact ⟨_, rfl⟩

/-- R31: the counter counts up to 255 and stays there. -/
theorem keycntSucc_toNat (n : BitVec 8) : (keycntSucc n).toNat = min (n.toNat + 1) 255 := by
  simp only [keycntSucc, BitVec.toNat_ofNat]
  omega

/-- R122: the byte stands at position KEYCNT where there is one; every other byte is as before. -/
theorem appendKeyByte_getElem (b : Byte) (s : State) {k : Nat} (hk : k < 32) :
    (appendKeyByte b s).keybuf[k] = if k = s.keycnt.toNat then b else s.keybuf[k] := by
  rw [appendKeyByte_keybuf]
  split
  · simp [Vector.getElem_set, eq_comm]
  · rw [if_neg (by omega)]

/-- BUILD fails on a wrong key length, or installs the context (R124 to R126). -/
theorem buildWith_cases (E : Bytes16 → Bytes16 → Bytes16) (s : State) :
    (s.keycnt = 32 ∧ buildWith E s = succeed (installContext E s)) ∨
      (s.keycnt ≠ 32 ∧ buildWith E s = raise .keyLength s) := by
  unfold buildWith
  split
  · exact .inl ⟨‹_›, rfl⟩
  · exact .inr ⟨‹_›, rfl⟩

/-- ANON fails without a context, or writes RES (R178 to R180). -/
theorem anonWith_cases (E : Bytes16 → Bytes16 → Bytes16) (f : Family) (s : State) :
    (s.ctxv = true ∧ anonWith E f s = succeed (finishAnon E f s)) ∨
      (s.ctxv = false ∧ anonWith E f s = raise .noContext s) := by
  unfold anonWith
  cases s.ctxv <;> simp

/-- A completion leaves nothing pending and touches neither DIN, nor OVR, nor the latches, nor the host (R40). -/
theorem exec_keeps {i : Instr} {s t : State} (h : exec i s = .next t) :
    t.pend = none ∧ t.din = s.din ∧ t.ovr = s.ovr ∧ t.latv = s.latv ∧ t.latf = s.latf ∧ t.env = s.env := by
  cases i
  case build =>
    rw [exec_build] at h
    obtain ⟨-, e⟩ | ⟨-, e⟩ := buildWith_cases Config.E s <;> rw [e] at h <;> cases h <;> simp
  case anon4 =>
    rw [exec_anon4] at h
    obtain ⟨-, e⟩ | ⟨-, e⟩ := anonWith_cases Config.E .v4 s <;> rw [e] at h <;> cases h <;> simp
  case anon6 =>
    rw [exec_anon6] at h
    obtain ⟨-, e⟩ | ⟨-, e⟩ := anonWith_cases Config.E .v6 s <;> rw [e] at h <;> cases h <;> simp
  all_goals cases h; simp

/-- No command reads the host, the schedule or the other parameters (R20). -/
theorem exec_setEnv {i : Instr} {s t : State} (h : exec i s = .next t) (e : Env) :
    exec i { s with env := e } = .next { t with env := e } := by
  cases i
  case build =>
    rw [exec_build] at h ⊢
    cases h
    simp only [buildWith]
    split <;> rfl
  case anon4 =>
    rw [exec_anon4] at h ⊢
    cases h
    simp only [anonWith]
    split <;> rfl
  case anon6 =>
    rw [exec_anon6] at h ⊢
    cases h
    simp only [anonWith]
    split <;> rfl
  all_goals cases h; rfl

/-! ### The register window -/

theorem windowOffset_eq_some {base addr off : Nat} :
    windowOffset base addr = some off ↔ addr = base + off ∧ off < 64 := by
  unfold windowOffset
  split <;> simp <;> omega

/-- The offsets of the map and their registers (R52). -/
theorem regAt_eq_some {off : Nat} {r : Reg} : regAt off = some r ↔ off = regOffset r := by
  constructor
  · unfold regAt
    intro h
    split at h <;> cases h <;> rfl
  · rintro rfl
    cases r with
    | cmd => rfl
    | status => rfl
    | din k => fin_cases k <;> rfl
    | res k => fin_cases k <;> rfl

theorem accessOk_regOffset (r : Reg) : accessOk 32 (regOffset r) = true := by
  cases r with
  | cmd => rfl
  | status => rfl
  | din k => fin_cases k <;> rfl
  | res k => fin_cases k <;> rfl

/-- A read is answered exactly when it is a 32-bit access at a register's offset, and then with that register's value. -/
theorem busRead_eq_some {s : State} {bits off : Nat} {v : Word} :
    busRead s bits off = some v ↔ bits = 32 ∧ ∃ r, off = regOffset r ∧ v = readReg s r := by
  constructor
  · unfold busRead
    split
    · rename_i h
      intro e
      obtain ⟨r, hr, rfl⟩ := Option.map_eq_some_iff.mp e
      simp [accessOk] at h
      exact ⟨h.1, r, regAt_eq_some.mp hr, rfl⟩
    · intro e; cases e
  · rintro ⟨rfl, r, rfl, rfl⟩
    simp [busRead, accessOk_regOffset, regAt_eq_some.mpr rfl]

/-- A write is answered exactly when it is a 32-bit access at the offset of a register the host may write. -/
theorem busWrite_eq_some {s t : State} {bits off : Nat} {v : Word} :
    busWrite bits off v s = some t ↔ bits = 32 ∧ ∃ r, off = regOffset r ∧ writeReg r v s = some t := by
  constructor
  · unfold busWrite
    split
    · rename_i h
      intro e
      obtain ⟨r, hr, e⟩ := Option.bind_eq_some_iff.mp e
      simp [accessOk] at h
      exact ⟨h.1, r, regAt_eq_some.mp hr, e⟩
    · intro e; cases e
  · rintro ⟨rfl, r, rfl, e⟩
    simp [busWrite, accessOk_regOffset, regAt_eq_some.mpr rfl, e]

/-- What a CMD write does: acceptance (R39) or overrun (R204). -/
theorem offer_cases (w : Word) (s : State) :
    (s.pend = none ∧ offer w s = accept w s) ∨
      (∃ p, s.pend = some p ∧ offer w s = { s with ovr := true }) := by
  unfold offer busy
  cases h : s.pend with
  | none => exact .inl ⟨rfl, by simp⟩
  | some p => exact .inr ⟨p, rfl, by simp⟩

/-- What an answered write does, register by register. -/
theorem writeReg_cases {r : Reg} {v : Word} {s t : State} (h : writeReg r v s = some t) :
    (r = .cmd ∧ t = offer v s) ∨ (r = .status ∧ t = { s with ovr := ovrAfterWrite v s.ovr }) ∨
      ∃ k, r = .din k ∧ t = { s with din := setWord s.din k v } := by
  cases r with
  | cmd => cases h; exact .inl ⟨rfl, rfl⟩
  | status => cases h; exact .inr (.inl ⟨rfl, rfl⟩)
  | din k => cases h; exact .inr (.inr ⟨k, rfl, rfl⟩)
  | res k => cases h

/-- An answered write touches at most DIN, OVR, PEND and the latches. -/
theorem busWrite_keeps {bits off : Nat} {v : Word} {s t : State} (h : busWrite bits off v s = some t) :
    t.res = s.res ∧ t.ctxv = s.ctxv ∧ t.err = s.err ∧ t.keycnt = s.keycnt ∧ t.keybuf = s.keybuf ∧ t.ck = s.ck ∧
      t.pad = s.pad ∧ t.mp = s.mp ∧ t.scratch = s.scratch ∧ t.draws = s.draws ∧ t.env = s.env := by
  obtain ⟨-, r, -, h⟩ := busWrite_eq_some.mp h
  obtain ⟨-, rfl⟩ | ⟨-, rfl⟩ | ⟨k, -, rfl⟩ := writeReg_cases h
  · obtain ⟨-, e⟩ | ⟨p, -, e⟩ := offer_cases v s <;> rw [e] <;> simp
  · simp
  · simp

/-- No access reads the host, the schedule or the other parameters (R20). -/
theorem busRead_setEnv (s : State) (e : Env) (bits off : Nat) :
    busRead { s with env := e } bits off = busRead s bits off := by
  have h : readReg { s with env := e } = readReg s := by
    funext r
    cases r <;> rfl
  simp only [busRead, h]

/-- No access reads the host, the schedule or the other parameters (R20). -/
theorem busWrite_setEnv {s t : State} {bits off : Nat} {v : Word} (h : busWrite bits off v s = some t) (e : Env) :
    busWrite bits off v { s with env := e } = some { t with env := e } := by
  obtain ⟨rfl, r, rfl, hr⟩ := busWrite_eq_some.mp h
  refine busWrite_eq_some.mpr ⟨rfl, r, rfl, ?_⟩
  obtain ⟨rfl, rfl⟩ | ⟨rfl, rfl⟩ | ⟨k, rfl, rfl⟩ := writeReg_cases hr
  · obtain ⟨hp, e1⟩ | ⟨p, hp, e1⟩ := offer_cases v s
    · rw [e1]
      simp only [writeReg, offer, busy, hp]
      rfl
    · rw [e1]
      simp only [writeReg, offer, busy, hp]
      rfl
  · rfl
  · rfl

/-! ### The turns -/

/-- Taking the first turn off the schedule. -/
theorem dropTurn_eq {s : State} {turn : Turn} {rest : List Turn} (h : s.env.schedule = turn :: rest) :
    dropTurn s = { s with env := { s.env with schedule := rest } } := by
  simp [dropTurn, h]

/-- An empty schedule stays empty. -/
theorem dropTurn_of_empty {s : State} (h : s.env.schedule = []) : dropTurn s = s := by
  have : s.env.schedule.tail = s.env.schedule := by simp [h]
  unfold dropTurn
  rw [this]

/-- One step of a run. -/
theorem run_succ {s t : State} (h : step s = .next t) (k : Nat) :
    Sys2Proof.core.run (k + 1) s = Sys2Proof.core.run k t := by
  have h' : Sys2Proof.core.step s = .next t := h
  simp only [Host.Core.run, h']

/-- One step is one turn (R60). -/
theorem step_cases {s t : State} (h : step s = .next t) :
    (nextTurn s = .host ∧ hostTurn (dropTurn s) = .next t) ∨
      (nextTurn s = .engine ∧ engineTurn (dropTurn s) = .next t) ∨
      (nextTurn s = .reset ∧ t = resetEngine (dropTurn s)) := by
  unfold step takeTurn at h
  split at h
  · exact .inl ⟨‹_›, h⟩
  · exact .inr (.inl ⟨‹_›, h⟩)
  · exact .inr (.inr ⟨‹_›, by cases h; rfl⟩)

/-- The engine's turn: nothing pending, a command, or an illegal word (R40, R202). -/
theorem engineTurn_cases {s t : State} (h : engineTurn s = .next t) :
    (s.pend = none ∧ t = s) ∨
      ∃ w, s.pend = some w ∧
        ((∃ i, decode w = .command i ∧ exec i s = .next t) ∨
          ∃ why, decode w = .illegal why ∧ t = raise .illegalCommand s) := by
  unfold engineTurn at h
  split at h
  · cases h; exact .inl ⟨‹_›, rfl⟩
  · rename_i w hw
    refine .inr ⟨w, hw, ?_⟩
    split at h
    · exact .inl ⟨_, ‹_›, h⟩
    · cases h; exact .inr ⟨_, ‹_›, rfl⟩

/-- The engine's turn never stops the machine. -/
theorem engineTurn_next (s : State) : ∃ t, engineTurn s = .next t := by
  unfold engineTurn
  split
  · exact ⟨_, rfl⟩
  · split
    · exact exec_next _ _
    · exact ⟨_, rfl⟩

/-- The host's turn (R80): no operation left, a branch, a read, a write, or an access that got an error response and after which
the host goes on. -/
theorem hostTurn_cases {s t : State} (h : hostTurn s = .next t) :
    (s.env.prog[s.env.hpc]? = none ∧ t = s) ∨
      (∃ m n, s.env.prog[s.env.hpc]? = some (.bnz m n) ∧ t = hostBranch m n s) ∨
      (∃ bits addr off v, s.env.prog[s.env.hpc]? = some (.read bits addr) ∧
        windowOffset s.env.base addr = some off ∧ busRead s bits off = some v ∧ t = hostAdvance (.data v) v s) ∨
      (∃ bits addr v off s', s.env.prog[s.env.hpc]? = some (.write bits addr v) ∧
        windowOffset s.env.base addr = some off ∧ busWrite bits off v s = some s' ∧ t = hostAdvance .done s'.env.t s') ∨
      (s.env.onBusError = .resume ∧ ∃ v n, t = hostAdvance .error v { s with draws := n }) := by
  unfold hostTurn at h
  split at h
  · cases h; exact .inl ⟨‹_›, rfl⟩
  · rename_i bits addr hop
    unfold hostRead at h
    split at h
    · cases h
    · rename_i off hoff
      split at h
      · cases h
        exact .inr (.inr (.inl ⟨_, _, _, _, hop, hoff, ‹_›, rfl⟩))
      · unfold hostError at h
        split at h
        · cases h
        · cases h; exact .inr (.inr (.inr (.inr ⟨‹_›, _, _, rfl⟩)))
  · rename_i bits addr v hop
    unfold hostWrite at h
    split at h
    · cases h
    · rename_i off hoff
      split at h
      · cases h
        exact .inr (.inr (.inr (.inl ⟨_, _, _, _, _, hop, hoff, ‹_›, rfl⟩)))
      · unfold hostError at h
        split at h
        · cases h
        · cases h; exact .inr (.inr (.inr (.inr ⟨‹_›, _, s.draws, rfl⟩)))
  · rename_i m n hop
    cases h
    exact .inr (.inl ⟨_, _, hop, rfl⟩)

/-- What the host cannot change (R43, R57): everything but DIN, OVR, PEND, the latches and its own state. -/
theorem hostTurn_keeps {s t : State} (h : hostTurn s = .next t) :
    t.res = s.res ∧ t.ctxv = s.ctxv ∧ t.err = s.err ∧ t.keycnt = s.keycnt ∧ t.keybuf = s.keybuf ∧ t.ck = s.ck ∧
      t.pad = s.pad ∧ t.mp = s.mp ∧ t.scratch = s.scratch := by
  obtain ⟨-, rfl⟩ | ⟨m, n, -, rfl⟩ | ⟨_, _, _, _, -, -, -, rfl⟩ | ⟨_, _, _, _, _, -, -, hw, rfl⟩ | ⟨-, _, _, rfl⟩ :=
    hostTurn_cases h
  · simp
  · simp
  · simp
  · have k := busWrite_keeps hw
    simp [k]
  · simp

end Sys2Proof.Machine
end

