-- ==== Sys2Proof/Laws/PerInstr.lean ====
section
/-! SUPPORT. Statements about every instruction as syntax, one lemma per constructor of `Instr`. -/

namespace Sys2Proof.Laws

/-- The `match` column of the opcode table (spec/opcode_table.json). -/
def tableMatch : Instr → Word
  | .nop => 0x00000000#32
  | .keyclr => 0x00000001#32
  | .keyb _ => 0x00000002#32
  | .build => 0x00000003#32
  | .anon4 => 0x00000004#32
  | .anon6 => 0x00000104#32

/-- The `mask` column of the opcode table. -/
def tableMask : Instr → Word
  | .nop => 0xFFFFFFFF#32
  | .keyclr => 0xFFFFFFFF#32
  | .keyb _ => 0xFFFF00FF#32
  | .build => 0xFFFFFFFF#32
  | .anon4 => 0xFFFFFFFF#32
  | .anon6 => 0xFFFFFFFF#32

/-- The encoding of the instruction has the fixed bits of its row of the opcode table. -/
def TableRow.Statement (i : Instr) : Prop := encode i &&& tableMask i = tableMatch i

theorem TableRow.nop : TableRow.Statement .nop := by
  unfold TableRow.Statement; decide
theorem TableRow.keyclr : TableRow.Statement .keyclr := by
  unfold TableRow.Statement; decide
theorem TableRow.keyb (b : Byte) : TableRow.Statement (.keyb b) := by
  simp only [TableRow.Statement, encode, formatC, tableMask, tableMatch]
  revert b
  decide
theorem TableRow.build : TableRow.Statement .build := by
  unfold TableRow.Statement; decide
theorem TableRow.anon4 : TableRow.Statement .anon4 := by
  unfold TableRow.Statement; decide
theorem TableRow.anon6 : TableRow.Statement .anon6 := by
  unfold TableRow.Statement; decide

end Sys2Proof.Laws
end

