-- ==== Sys2Proof/Machine/Aes.lean ====
section
/-! DEFINITION. AES-128, the default instantiation of the cipher primitive `E` for tests (40_cipher_primitive.md R108; its text is PRESUMED, from general knowledge as the rule says, log 2). No command uses it: the commands use the open `Config.E`, and the engine's rules depend on no cipher. It is written on natural numbers, byte 0 the most significant, so that the kernel evaluates it fast. -/

namespace Sys2Proof.Machine

/-- The S-box as one number: entry x is bits 8x+7 : 8x. -/
def aesSboxTable : Nat :=
  0x16bb54b00f2d99416842e6bf0d89a18cdf2855cee9871e9b948ed9691198f8e19e1dc186b95735610ef6034866b53e708a8bbd4b1f74dde8c6b4a61c2e2578ba08ae7a65eaf4566ca94ed58d6d37c8e779e4959162acd3c25c2406490a3a32e0db0b5ede14b8ee4688902a22dc4f816073195d643d7ea7c41744975fec130ccdd2f3ff1021dab6bcf5389d928f40a351a89f3c507f02f94585334d43fbaaefd0cf584c4a39becb6a5bb1fc20ed00d153842fe329b3d63b52a05a6e1b1a2c830975b227ebe28012079a059618c323c7041531d871f1e5a534ccf73f362693fdb7c072a49cafa2d4adf04759fa7dc982ca76abd7fe2b670130c56f6bf27b777c63

/-- SubBytes on one byte: entry x of the S-box. -/
def aesSub (x : Nat) : Nat := (aesSboxTable >>> (8 * x)) % 256

/-- Multiplication of a byte by 2 in the field of 256 elements, whose polynomial is 11B hexadecimal. -/
def aesXtime (x : Nat) : Nat := if x < 128 then 2 * x else (2 * x) ^^^ 0x11B

/-- Byte i of a block, counted from the first: the block's byte string stands big-endian in the number (R108: FIPS-197
order). -/
def aesByte (v i : Nat) : Nat := (v >>> (8 * (15 - i))) % 256

/-- The block whose byte i is `f i`. -/
def aesPack (f : Nat → Nat) : Nat := (List.range 16).foldl (fun acc i => acc * 256 + f i) 0

/-- SubBytes and ShiftRows: byte i of the result comes from byte 5i mod 16. -/
def aesSubShift (v : Nat) : Nat := aesPack fun i => aesSub (aesByte v ((5 * i) % 16))

/-- Byte k of the column of byte i, counted from byte i round the column. -/
def aesInColumn (v i k : Nat) : Nat := aesByte v (4 * (i / 4) + (i + k) % 4)

/-- MixColumns. -/
def aesMix (v : Nat) : Nat := aesPack fun i =>
  aesXtime (aesInColumn v i 0) ^^^ aesXtime (aesInColumn v i 1) ^^^ aesInColumn v i 1 ^^^ aesInColumn v i 2 ^^^
    aesInColumn v i 3

/-- The word mixed into the first word of the next round key: the last word rotated by a byte, through the S-box, with the
round constant. -/
def aesKeyWord (w rcon : Nat) : Nat :=
  (aesSub ((w >>> 16) % 256) ^^^ rcon) * 2 ^ 24 + aesSub ((w >>> 8) % 256) * 2 ^ 16 + aesSub (w % 256) * 2 ^ 8 +
    aesSub (w >>> 24)

/-- The next round key. -/
def aesNextKey (k rcon : Nat) : Nat :=
  let n0 := (k >>> 96) ^^^ aesKeyWord (k % 2 ^ 32) rcon
  let n1 := (k >>> 64) % 2 ^ 32 ^^^ n0
  let n2 := (k >>> 32) % 2 ^ 32 ^^^ n1
  let n3 := k % 2 ^ 32 ^^^ n2
  ((n0 * 2 ^ 32 + n1) * 2 ^ 32 + n2) * 2 ^ 32 + n3

/-- The rounds, one for each round constant; the last has no MixColumns. -/
def aesRounds : List Nat → Nat → Nat → Nat
  | [], _, v => v
  | [rcon], k, v => aesSubShift v ^^^ aesNextKey k rcon
  | rcon :: rest, k, v => aesRounds rest (aesNextKey k rcon) (aesMix (aesSubShift v) ^^^ aesNextKey k rcon)

/-- AES-128 on numbers: the first key addition, then ten rounds. -/
def aesNat (k b : Nat) : Nat := aesRounds [1, 2, 4, 8, 16, 32, 64, 128, 27, 54] k (b ^^^ k)

/-- R108: AES-128 on byte strings, the primitive `E` that reproduces the source's vectors and the default one for tests: key
and block in FIPS-197 order. It has the signature of R100, so it can stand for `E` in `buildWith` and `anonWith`. -/
def aes128 (k b : Bytes16) : Bytes16 := unbe128 (BitVec.ofNat 128 (aesNat (be128 k).toNat (be128 b).toNat))

end Sys2Proof.Machine
end

