-- ==== Sys2Proof/Tests/Slice0.lean ====
section
/-! SUPPORT. Tests on small states: decoding of words written out from the spec, one or two facts of one step of each command, the register window, and, for every statement with hypotheses, a state that meets them. Expected values are from spec/95_test_vectors.md and from the rules by hand. -/

namespace Sys2Proof.Tests

open Sys2Proof.Machine

/-! ### Helpers -/

/-- The next state of an outcome, where it has one. -/
def nextOf (o : Host.Outcome State Fault Refusal) : Option State :=
  match o with
  | .next s => some s
  | .fault _ => none
  | .refused _ => none

/-- The next state, or the state after reset where there is none. -/
def after (o : Host.Outcome State Fault Refusal) : State := (nextOf o).getD State.reset

/-- After reset, with a host program at base 0x1000 and a schedule. -/
def hostState (prog : List HostOp) (schedule : List Turn) : State :=
  { State.reset with env := { Env.empty with base := 0x1000, prog := prog, schedule := schedule } }

/-- After reset, with a word pending. -/
def pendState (w : Word) : State := { State.reset with pend := some w }

/-- After reset, with a context installed (CK, PAD and MP all 0). -/
def contextState : State := { State.reset with ctxv := true }

/-- The toy cipher E_id (95_test_vectors.md section 3.3). -/
def idCipher (_ b : Bytes16) : Bytes16 := b

/-- The key K0, 0x00 to 0x1F, loaded. -/
def k0State : State :=
  { State.reset with keybuf := Vector.ofFn fun k => BitVec.ofNat 8 k.val, keycnt := 32 }

/-! ### Decoding: words written out from R82 and 95_test_vectors.md section 5.1 -/

theorem test_decode_nop : decode 0b00000000000000000000000000000000#32 = .command .nop := by decide
theorem test_decode_keyclr : decode 0b00000000000000000000000000000001#32 = .command .keyclr := by decide
theorem test_decode_keyb : decode 0b00000000000000000001111100000010#32 = .command (.keyb 0x1F#8) := by decide
theorem test_decode_keyb_top : decode 0b00000000000000001111111100000010#32 = .command (.keyb 0xFF#8) := by decide
theorem test_decode_build : decode 0b00000000000000000000000000000011#32 = .command .build := by decide
theorem test_decode_anon4 : decode 0b00000000000000000000000000000100#32 = .command .anon4 := by decide
theorem test_decode_anon6 : decode 0b00000000000000000000000100000100#32 = .command .anon6 := by decide
theorem test_decode_anon_arg2 : decode 0x00000204#32 = .illegal .family := by decide
theorem test_decode_nop_arg : decode 0x00000100#32 = .illegal .argument := by decide
theorem test_decode_build_arg : decode 0x00000103#32 = .illegal .argument := by decide
theorem test_decode_rsv : decode 0x00010002#32 = .illegal .reserved := by decide
theorem test_decode_opcode : decode 0x000000FF#32 = .illegal .opcode := by decide
theorem test_decode_all_ones : (decode 0xFFFFFFFF#32).toOption = none := by decide
theorem test_encode_keyb : encode (.keyb 0x1F#8) = 0x00001F02#32 := by decide
theorem test_encode_anon6 : encode .anon6 = 0x00000104#32 := by decide
theorem test_table_word : decodeTableWord 32 0x104 = some .anon6 := by decide

/-! ### Well-formedness: a term that each check refuses -/

theorem test_wf_instr : Instr.wf (.keyb 0xFF#8) = true := by decide
theorem test_wf_ldkey_refused : HostLine.wf 1 (.ldkey (List.replicate 31 0)) = false := by decide
theorem test_wf_label_refused : hostProgramWf [.rd .status, .bnz 1#32 2] = false := by decide
theorem test_wf_program : hostProgramWf [.rd .status, .bnz 1#32 0, .cmd .build] = true := by decide

/-! ### The commands -/

/-- R120: with ERR = 1, `nop` completes with ERR = 1 and BUSY = 0. -/
theorem test_nop_keeps_err :
    statusWord (after (exec .nop { pendState 0#32 with err := .keyLength })) = 0x00000010#32 := by decide

/-- R121: with KEYCNT = 33, `keyclr` gives KEYCNT = 0 and ERR = 0. -/
theorem test_keyclr_count :
    statusWord (after (exec .keyclr { State.reset with keycnt := 33, err := .keyLength })) = 0x00000000#32 := by decide

/-- R122: from KEYCNT = 31, `keyb 0x1f` stores KEYBUF[31] = 0x1F and gives KEYCNT = 32. -/
theorem test_keyb_last :
    (after (exec (.keyb 0x1F#8) { State.reset with keycnt := 31 })).keybuf[31] = 0x1F#8 := by decide

/-- R31: the count saturates at 255. -/
theorem test_keyb_saturates :
    (after (exec (.keyb 0x01#8) { State.reset with keycnt := 255 })).keycnt = 255 := by decide

/-- Section 3.1: BUILD with 33 bytes loaded. -/
theorem test_build_33 : statusWord (after (exec .build { State.reset with keycnt := 33 })) = 0x00002110#32 := by decide

/-- Section 5.2: after reset `anon4` completes with ERR = 2. -/
theorem test_anon4_no_context : statusWord (after (exec .anon4 State.reset)) = 0x00000020#32 := by decide

/-- Section 6.6: E_id, K0, IPv6, all ones. -/
theorem test_anon6_id :
    (anonWith idCipher .v6 (buildWith idCipher { k0State with latv := BitVec.allOnes 128 })).res =
      0x80000000000000000000000000000000#128 := by decide +kernel

/-! ### The mask table (section 3.2) -/

theorem test_mask_31 : maskRom 31 = 0xFFFFFFFE000000000000000000000000#128 := by decide
theorem test_mask_127 : maskRom 127 = 0xFFFFFFFFFFFFFFFFFFFFFFFFFFFFFFFE#128 := by decide
theorem test_mask_0 : maskRom 0 = 0#128 := by decide
theorem test_maskedPad_6 :
    (maskedPads 0x07FEEF74E1D5036E900EEE118E949293#128)[6] = 0x03FEEF74E1D5036E900EEE118E949293#128 := by decide +kernel
theorem test_maskedPad_96 : (maskedPads 0x07FEEF74E1D5036E900EEE118E949293#128)[96] = 0x8E949293#128 := by decide +kernel

/-! ### The register window (section 5.2) -/

theorem test_read_cmd : busRead k0State 32 0x00 = some 0#32 := by decide
theorem test_read_unmapped : busRead State.reset 32 0x08 = none := by decide
theorem test_read_misaligned : busRead State.reset 32 0x12 = none := by decide
theorem test_write_unmapped : busWrite 32 0x30 1#32 State.reset = none := by decide
theorem test_write_res : busWrite 32 0x20 1#32 State.reset = none := by decide
theorem test_write_narrow : busWrite 8 0x10 1#32 State.reset = none := by decide

/-- A write of STATUS with bit 3 set clears OVR and leaves the other fields. -/
theorem test_write_status :
    ((busWrite 32 0x04 0x00000008#32 { contextState with ovr := true, keycnt := 32 }).map statusWord) = some 0x00002002#32 := by
  decide

/-- A write of STATUS with bit 3 clear leaves OVR. -/
theorem test_write_status_other :
    ((busWrite 32 0x04 0xFFFFFFF7#32 { State.reset with ovr := true }).map statusWord) = some 0x00000008#32 := by decide

/-- An illegal word written while BUSY sets OVR only (R207). -/
theorem test_overrun : ((busWrite 32 0x00 0x000000FF#32 (pendState 3#32)).map statusWord) = some 0x00000009#32 := by decide

/-- DIN1 holds DIN[63:32]. -/
theorem test_write_din1 :
    ((busWrite 32 0x14 0xAABBCCDD#32 { State.reset with din := BitVec.allOnes 128 }).map (·.din)) =
      some 0xFFFFFFFFFFFFFFFFAABBCCDDFFFFFFFF#128 := by decide

/-- Acceptance of ANON6 latches DIN and FAM. -/
theorem test_accept_anon6 :
    ((busWrite 32 0x00 0x00000104#32 { State.reset with din := 7 }).map fun s => (s.latv, s.latf, busy s)) =
      some (7, 1, true) := by decide

/-! ### Steps -/

/-- A pending illegal word completes with ERR = 3 (R202). -/
theorem test_step_illegal : statusWord (after (step (pendState 5#32))) = 0x00000030#32 := by decide

/-- The word placed by `withFetchWord` is the one the next step completes. -/
theorem test_step_fetched :
    (after (step (State.reset.withFetchWord 32 0x00001F02))).keybuf[0] = 0x1F#8 := by decide

/-- P5: a reset with a command pending. -/
theorem test_step_reset :
    statusWord (after (step { pendState 0x104#32 with keycnt := 9, env := { Env.empty with schedule := [.reset] } })) =
      0x00000000#32 := by decide

/-- `rd STATUS` puts the STATUS word in `t`. -/
theorem test_step_read :
    (after (step { hostState [rdOp 0x1000 .status] [] with keycnt := 32 })).env.t = 0x00002000#32 := by decide

/-- `clrovr` assembles to a write of 8 to STATUS (R81). -/
theorem test_assemble_clrovr : assemble 0x1000 [.clrovr] = [.write 32 0x1004 0x00000008#32] := by decide

/-- `issue anon6` after a line of one operation: its wait loop branches to its own position (R81). -/
theorem test_assemble_issue :
    assemble 0x1000 [.rd .status, .cmd .anon6] =
      [.read 32 0x1004, .read 32 0x1004, .bnz 1#32 1, .write 32 0x1000 0x00000104#32] := by decide

/-! ### Witnesses: for every statement with hypotheses, states that meet all of them -/

theorem witness_ResetAbandonsPendingCommand :
    ({ pendState 0x104#32 with env := { Env.empty with schedule := [.reset] } } : State).env.schedule = .reset :: [] := rfl

theorem witness_AcceptanceLatches_anon :
    State.reset.pend = none ∧ (decode 4#32 = .command .anon4 ∨ decode 4#32 = .command .anon6) := by decide
theorem witness_AcceptanceLatches_anon6 :
    State.reset.pend = none ∧ (decode 0x104#32 = .command .anon4 ∨ decode 0x104#32 = .command .anon6) := by decide
theorem witness_AcceptanceLatches_other :
    State.reset.pend = none ∧ ¬(decode 5#32 = .command .anon4 ∨ decode 5#32 = .command .anon6) := by decide
theorem witness_AcceptanceLatches_busy : (pendState 3#32).pend ≠ none := by decide

theorem witness_OverrunRule_write : (pendState 3#32).pend ≠ none := by decide
theorem witness_OverrunRule_exec : exec .nop State.reset = .next (retire State.reset) := rfl
theorem witness_OverrunRule_only :
    let s := { hostState [.write 32 0x1000 5#32] [.host] with pend := some 3#32 }
    ∃ t, step s = .next t ∧ s.ovr = false ∧ t.ovr = true := ⟨_, rfl, rfl, by decide⟩

theorem witness_OverrunCleared_exec : exec .build State.reset = .next (raise .keyLength State.reset) := rfl
theorem witness_OverrunCleared_reset :
    let s : State := { State.reset with ovr := true, env := { Env.empty with schedule := [.reset] } }
    nextTurn s = .reset ∧ ∃ t, step s = .next t := ⟨rfl, _, rfl⟩

theorem witness_HostReadStep :
    let s := hostState [.read 32 (0x1000 + regOffset (.res 3))] [.host]
    s.env.schedule = .host :: [] ∧ s.env.prog[s.env.hpc]? = some (.read 32 (s.env.base + regOffset (.res 3))) := by decide

theorem witness_HostWriteStep :
    let s := hostState [.write 32 (0x1000 + 0x1C) 9#32] [.host]
    s.env.schedule = .host :: [] ∧ s.env.prog[s.env.hpc]? = some (.write 32 (s.env.base + 0x1C) 9#32) ∧
      ∃ u, busWrite 32 0x1C 9#32 s = some u := ⟨rfl, rfl, _, rfl⟩

theorem witness_HostBranchStep_taken :
    let s : State := { State.reset with
      env := { Env.empty with prog := [.bnz 1#32 0], t := 3#32, schedule := [.host] } }
    s.env.schedule = .host :: [] ∧ s.env.prog[s.env.hpc]? = some (.bnz 1#32 0) ∧ s.env.t &&& 1#32 ≠ 0 := by decide
theorem witness_HostBranchStep_passed :
    let s : State := { State.reset with
      env := { Env.empty with prog := [.bnz 1#32 0], t := 2#32, schedule := [.host] } }
    s.env.schedule = .host :: [] ∧ s.env.prog[s.env.hpc]? = some (.bnz 1#32 0) ∧ s.env.t &&& 1#32 = 0 := by decide

theorem witness_BusErrorChangesNoEngineState_read :
    let s := hostState [.read 32 0x103E] [.host]
    s.env.schedule = .host :: [] ∧ s.env.prog[s.env.hpc]? = some (.read 32 0x103E) ∧
      windowOffset s.env.base 0x103E = some 0x3E ∧ busRead s 32 0x3E = none ∧ s.env.onBusError = .fault := by decide
theorem witness_BusErrorChangesNoEngineState_write :
    let s : State := { State.reset with
      env := { Env.empty with onBusError := .resume, prog := [.write 32 0x20 1#32], schedule := [.host] } }
    s.env.schedule = .host :: [] ∧ s.env.prog[s.env.hpc]? = some (.write 32 0x20 1#32) ∧
      windowOffset s.env.base 0x20 = some 0x20 ∧ busWrite 32 0x20 1#32 s = none ∧ s.env.onBusError = .resume := by decide

theorem witness_OutsideWindowRefused_above :
    let s := hostState [.read 32 0x1040] [.host]
    s.env.schedule = .host :: [] ∧ s.env.base + 64 ≤ 0x1040 ∧ s.env.prog[s.env.hpc]? = some (.read 32 0x1040) := by decide
theorem witness_OutsideWindowRefused_below :
    let s := hostState [.write 32 0x0FFF 1#32] [.host]
    s.env.schedule = .host :: [] ∧ 0x0FFF < s.env.base ∧ s.env.prog[s.env.hpc]? = some (.write 32 0x0FFF 1#32) := by decide

theorem witness_StepRunsDecodedCommand_empty :
    (pendState 3#32).pend = some 3#32 ∧ decode 3#32 = .command .build ∧ Instr.wf .build = true ∧
      (pendState 3#32).env.schedule = [] := by decide
theorem witness_StepRunsDecodedCommand_scheduled :
    let s : State := { pendState 0x104#32 with env := { Env.empty with schedule := [.engine, .reset] } }
    s.pend = some 0x104#32 ∧ decode 0x104#32 = .command .anon6 ∧ Instr.wf .anon6 = true ∧
      s.env.schedule = .engine :: [.reset] := by decide

theorem witness_IllegalWordCompletes : (pendState 5#32).pend = some 5#32 ∧ decode 5#32 = .illegal .opcode := by decide

theorem witness_DecodeEncodeAgree : Instr.wf .anon6 = true ∧ decode 0x104#32 = .command .anon6 := by decide

theorem witness_BuildInstallsContext : k0State.keycnt = 32 := rfl
theorem witness_BuildKeyLengthError_below : ({ State.reset with keycnt := 31 } : State).keycnt ≠ 32 := by decide
theorem witness_BuildKeyLengthError_above : ({ State.reset with keycnt := 33 } : State).keycnt ≠ 32 := by decide
theorem witness_BuildAcceptsExactlyThirtyTwoBytes_ok : (List.replicate 32 (0 : Byte)).length = 32 := by decide
theorem witness_BuildAcceptsExactlyThirtyTwoBytes_long : (List.replicate 33 (0 : Byte)).length ≠ 32 := by decide
theorem witness_BuildKeepsKeyAndRepeats : k0State.keycnt = 32 ∧ ∃ t, exec .build k0State = .next t := ⟨rfl, _, rfl⟩
theorem witness_MaskedPadShape : k0State.keycnt = 32 ∧ ∃ t, exec .build k0State = .next t := ⟨rfl, _, rfl⟩

theorem witness_Anon4Completes : contextState.ctxv = true := rfl
theorem witness_Anon6Completes : contextState.ctxv = true := rfl
theorem witness_AnonWithoutContext : State.reset.ctxv = false := rfl

theorem contextState_contextInv : ContextInv contextState := by
  intro _ p
  simp [contextState, State.reset]

theorem witness_CandidateShape : contextState.ctxv = true ∧ ContextInv contextState := ⟨rfl, contextState_contextInv⟩
theorem witness_Ipv4CandidateLowBits : contextState.ctxv = true ∧ ContextInv contextState := ⟨rfl, contextState_contextInv⟩

theorem witness_PrefixPreservation :
    let s₂ : State := { contextState with latv := 1 }
    contextState.ctxv = true ∧ SameContext contextState s₂ ∧ (∃ t, exec .anon4 contextState = .next t) ∧
      (∃ t, exec .anon4 s₂ = .next t) ∧ (∃ t, exec .anon6 contextState = .next t) ∧ ∃ t, exec .anon6 s₂ = .next t :=
  ⟨rfl, ⟨rfl, rfl, rfl, rfl⟩, ⟨_, rfl⟩, ⟨_, rfl⟩, ⟨_, rfl⟩, ⟨_, rfl⟩⟩

theorem witness_AnonymizationIsBijection : contextState.ctxv = true := rfl

theorem witness_Ipv4ResultIsPrefixOfIpv6Result :
    let s₁ : State := { contextState with latv := 0xC0000201#128 }
    let s₂ : State := { contextState with latv := 0xC0000201000000000000000000000000#128 }
    s₁.ctxv = true ∧ SameContext s₁ s₂ ∧ s₂.latv.extractLsb' 96 32 = s₁.latv.extractLsb' 0 32 ∧
      (∃ t, exec .anon4 s₁ = .next t) ∧ ∃ t, exec .anon6 s₂ = .next t :=
  ⟨rfl, ⟨rfl, rfl, rfl, rfl⟩, by decide, ⟨_, rfl⟩, ⟨_, rfl⟩⟩

theorem witness_ResultDependsOnContextAndAddress :
    let s₂ : State := { contextState with latv := 0x1_00000000#128, din := 5 }
    contextState.ctxv = true ∧ s₂.ctxv = true ∧ ContextInv contextState ∧ ContextInv s₂ ∧ s₂.ck = contextState.ck ∧
      s₂.pad = contextState.pad ∧ s₂.latv.extractLsb' 0 32 = contextState.latv.extractLsb' 0 32 ∧
      (∃ t, exec .anon4 contextState = .next t) ∧ ∃ t, exec .anon4 s₂ = .next t :=
  ⟨rfl, rfl, contextState_contextInv, contextState_contextInv, rfl, rfl, by decide, ⟨_, rfl⟩, ⟨_, rfl⟩⟩
theorem witness_ResultDependsOnContextAndAddress_v6 :
    let s₂ : State := { contextState with din := 5 }
    s₂.ctxv = true ∧ ContextInv s₂ ∧ s₂.ck = contextState.ck ∧ s₂.pad = contextState.pad ∧
      s₂.latv = contextState.latv ∧ (∃ t, exec .anon6 contextState = .next t) ∧ ∃ t, exec .anon6 s₂ = .next t :=
  ⟨rfl, contextState_contextInv, rfl, rfl, rfl, ⟨_, rfl⟩, ⟨_, rfl⟩⟩

/-- A state that meets the invariant, from which a step is taken. -/
theorem witness_StepKeepsInvariant :
    EngineInv contextState ∧ ∃ t, step contextState = .next t :=
  ⟨⟨contextState_contextInv, fun k _ => by simp [contextState, State.reset], fun w h => by cases h⟩, _, rfl⟩

theorem witness_ContextChangesOnlyByBuild :
    let s : State := { k0State with pend := some 3#32 }
    ∃ t, step s = .next t ∧ ¬SameContext s t :=
  ⟨_, rfl, fun h => Bool.noConfusion (show true = false from h.1)⟩

theorem witness_ResultChangesOnlyByAnon :
    let s : State := { State.reset with res := 1, env := { Env.empty with schedule := [.reset] } }
    ∃ t, step s = .next t ∧ t.res ≠ s.res := ⟨_, rfl, by decide⟩

theorem witness_ErrorCodeChangesOnlyAtCompletion :
    ∃ t, step (pendState 4#32) = .next t ∧ t.err ≠ (pendState 4#32).err := ⟨_, rfl, by decide⟩

theorem witness_KeyChangesOnlyByKeyCommands :
    ∃ t, step (pendState 0x102#32) = .next t ∧
      (t.keybuf ≠ (pendState 0x102#32).keybuf ∨ t.keycnt ≠ (pendState 0x102#32).keycnt) := ⟨_, rfl, .inr (by decide)⟩

theorem witness_InputsChangeOnlyByHost_din :
    let s := hostState [.write 32 0x101C 1#32] [.host]
    ∃ t, step s = .next t ∧ t.din ≠ s.din := ⟨_, rfl, by decide⟩
theorem witness_InputsChangeOnlyByHost_latch :
    let s := hostState [.write 32 0x1000 0x104#32] [.host]
    ∃ t, step s = .next t ∧ (t.latv ≠ s.latv ∨ t.latf ≠ s.latf) := ⟨_, rfl, .inr (by decide)⟩

theorem witness_PendingNeverCancelled_host :
    let s : State := { pendState 3#32 with env := { Env.empty with schedule := [.host] } }
    s.pend = some 3#32 ∧ nextTurn s = .host ∧ ∃ t, step s = .next t := ⟨rfl, rfl, _, rfl⟩
theorem witness_PendingNeverCancelled_engine :
    (pendState 3#32).pend = some 3#32 ∧ nextTurn (pendState 3#32) = .engine ∧ ∃ t, step (pendState 3#32) = .next t :=
  ⟨rfl, rfl, _, rfl⟩

theorem witness_HiddenStateStaysHidden :
    let s := hostState [.read 32 0x1004] [.host]
    let s' : State := { s with pad := 1, keybuf := Vector.replicate 32 7 }
    SameHostView s s' ∧
      ¬(nextTurn s = .engine ∧ s.ctxv = true ∧ ∃ w, s.pend = some w ∧ isAnon w = true) ∧ ∃ t, step s = .next t :=
  ⟨rfl, fun h => Bool.noConfusion (show false = true from h.2.1), _, rfl⟩
theorem witness_HiddenStateStaysHidden_fault :
    let s := hostState [.read 8 0x1004] [.host]
    SameHostView s { s with pad := 1 } ∧
      ¬(nextTurn s = .engine ∧ s.ctxv = true ∧ ∃ w, s.pend = some w ∧ isAnon w = true) ∧ step s = .fault .busError :=
  ⟨rfl, fun h => Bool.noConfusion (show false = true from h.2.1), rfl⟩
theorem witness_HiddenStateStaysHidden_refused :
    let s := hostState [.read 32 0x0] [.host]
    SameHostView s { s with pad := 1 } ∧
      ¬(nextTurn s = .engine ∧ s.ctxv = true ∧ ∃ w, s.pend = some w ∧ isAnon w = true) ∧
      step s = .refused .outsideWindow :=
  ⟨rfl, fun h => Bool.noConfusion (show false = true from h.2.1), rfl⟩

theorem witness_PendingCommandReachesCompletion :
    let s : State := { hostState [.read 32 0x1004, .bnz 1#32 0] [.host, .host, .host] with pend := some 4#32 }
    s.pend = some 4#32 ∧ HostProgramMapped s ∧ .reset ∉ s.env.schedule := by
  refine ⟨rfl, ?_, by decide⟩
  unfold HostProgramMapped
  decide

theorem witness_OverrunRaceHasBothOutcomes_engine :
    let s : State := { hostState [.write 32 0x1000 4#32] [.engine, .host] with keycnt := 32, pend := some 3#32 }
    s.pend = some 3#32 ∧ s.keycnt = 32 ∧ s.env.prog[s.env.hpc]? = some (.write 32 (s.env.base + 0x00) 4#32) ∧
      s.env.schedule = .engine :: .host :: [] := by decide
theorem witness_OverrunRaceHasBothOutcomes_host :
    let s : State := { hostState [.write 32 0x1000 4#32] [.host, .engine] with keycnt := 32, pend := some 3#32 }
    s.pend = some 3#32 ∧ s.keycnt = 32 ∧ s.env.prog[s.env.hpc]? = some (.write 32 (s.env.base + 0x00) 4#32) ∧
      s.env.schedule = .host :: .engine :: [] := by decide

theorem witness_TornResultRead :
    let s : State := { hostState [.read 32 0x1020, .read 32 0x1024] [.host, .engine, .host] with
      ctxv := true, pend := some 0x104#32 }
    s.pend = some 0x104#32 ∧ s.ctxv = true ∧ s.env.schedule = .host :: .engine :: .host :: [] ∧
      s.env.prog[s.env.hpc]? = some (.read 32 (s.env.base + 0x20)) ∧
      s.env.prog[s.env.hpc + 1]? = some (.read 32 (s.env.base + 0x24)) := by decide

theorem witness_AssembledLinesStandAtTheirLabels :
    ([.rd .status, .cmd .anon6] : List HostLine)[1]? = some (.cmd .anon6) := rfl

theorem witness_AssembledProgramsAreMapped :
    ∀ l ∈ ([.setdin4 1#32, .cmd .anon4, .getres4] : List HostLine), writesNoResult l = true := by decide

theorem witness_MappedProgramNeverStops : HostProgramMapped (hostState [.read 32 0x1004, .write 32 0x101C 1#32] []) := by
  unfold HostProgramMapped
  decide

theorem witness_IssueNeverOverruns :
    let p : List HostLine := [.cmd .anon4, .cmd .anon4]
    let s := hostState (assemble 0x1000 p) [.host, .host]
    (∀ l ∈ p, noRawCommand l = true) ∧ s.env.prog = assemble s.env.base p ∧ s.env.hpc = 0 ∧ s.ovr = false ∧
      ∃ t, Sys2Proof.core.run 2 s = .next t := ⟨by decide, rfl, rfl, rfl, _, rfl⟩

end Sys2Proof.Tests
end

