-- ==== Sys2Proof/Tests/Aes.lean ====
section
/-! SUPPORT. The spec's vectors for AES-128 (R108): the FIPS-197 example, the pad and `calc` of the key K0, and the source's two worked examples W1 and W2 (95_test_vectors.md). -/

namespace Sys2Proof.Tests

open Sys2Proof.Machine

/-- FIPS-197 Appendix C.1 (K2 of 93_implementation_defined.md). -/
theorem test_aes_fips197 :
    aesNat 0x000102030405060708090A0B0C0D0E0F 0x00112233445566778899AABBCCDDEEFF = 0x69C4E0D86A7B0430D8CDB78070B4C55A := by
  decide +kernel

/-- Section 3.2: AES-128 of the zero block under the zero key. -/
theorem test_aes_zero : be128 (aes128 (Vector.replicate 16 0) (Vector.replicate 16 0)) = 0x66E94BD4EF8A2C3B884CFA59CA342B2E#128 := by
  decide +kernel

/-- The product of two bytes in the field, by the bits of the second, highest first. -/
def fieldMul (a b : Nat) : Nat :=
  (List.range 8).foldl (fun acc k => aesXtime acc ^^^ if b.testBit (7 - k) then a else 0) 0

/-- A byte rotated left by k bits. -/
def rotByte (y k : Nat) : Nat := (y <<< k) % 256 ||| (y >>> (8 - k))

/-- The affine map of the S-box, as FIPS-197 defines it (PRESUMED, log 2), and the map back. -/
def sboxAffine (y : Nat) : Nat := y ^^^ rotByte y 1 ^^^ rotByte y 2 ^^^ rotByte y 3 ^^^ rotByte y 4 ^^^ 0x63
def sboxAffineBack (v : Nat) : Nat := rotByte v 1 ^^^ rotByte v 3 ^^^ rotByte v 6 ^^^ 0x05

/-- Every entry of the S-box is the affine map of the field's inverse of its index (of 0 at index 0). -/
theorem test_aes_sbox :
    ((List.range 256).all fun x =>
      sboxAffine (sboxAffineBack (aesSub x)) == aesSub x &&
        (if x == 0 then sboxAffineBack (aesSub x) == 0 else fieldMul x (sboxAffineBack (aesSub x)) == 1)) = true := by
  decide +kernel

/-- Section 4: the cipher block of the candidate PAD, and `calc` of it and of all ones. -/
theorem test_aes_candidate_block :
    be128 (aes128 (cipherKey k0State.keybuf) (unbe128 0x07FEEF74E1D5036E900EEE118E949293#128)) =
      0x89CF8408250BF8C4AC9A44865364B837#128 := by decide +kernel
theorem test_calc_aes_one :
    calcBit aes128 (cipherKey k0State.keybuf) 0x07FEEF74E1D5036E900EEE118E949293#128 = 1#1 := by decide +kernel
theorem test_calc_aes_zero : calcBit aes128 (cipherKey k0State.keybuf) (BitVec.allOnes 128) = 0#1 := by decide +kernel

/-- R124, section 3.2: the pad of the key K0. -/
theorem test_build_aes_pad : (buildWith aes128 k0State).pad = 0x07FEEF74E1D5036E900EEE118E949293#128 := by decide +kernel

/-- W1: 192.0.2.1 becomes 2.90.93.17; the upper DIN bits are ignored (section 6.3). -/
theorem test_anon4_aes_w1 :
    (anonWith aes128 .v4 (buildWith aes128 { k0State with latv := 0x20010DB8000000000000FF00C0000201#128 })).res =
      0x025A5D11#128 := by decide +kernel

/-- W2: 2001:db8::ff00:42:8329 becomes dd92:2c44:3fc0:ff1e:7ff9:ff:787c:8c58. -/
theorem test_anon6_aes_w2 :
    (anonWith aes128 .v6 (buildWith aes128 { k0State with latv := 0x20010DB8000000000000FF0000428329#128 })).res =
      0xDD922C443FC0FF1E7FF900FF787C8C58#128 := by decide +kernel

/-- W1 through the commands themselves, where the engine's primitive is AES-128 (R108). -/
theorem test_commands_aes_w1 (h : Config.E = aes128) :
    ∃ t u, exec .build { k0State with latv := 0x20010DB8000000000000FF00C0000201#128 } = .next t ∧
      exec .anon4 t = .next u ∧ u.res = 0x025A5D11#128 :=
  ⟨_, _, exec_build _, exec_anon4 _, by rw [h]; exact test_anon4_aes_w1⟩

/-- W2 through the commands themselves, where the engine's primitive is AES-128 (R108). -/
theorem test_commands_aes_w2 (h : Config.E = aes128) :
    ∃ t u, exec .build { k0State with latv := 0x20010DB8000000000000FF0000428329#128 } = .next t ∧
      exec .anon6 t = .next u ∧ u.res = 0xDD922C443FC0FF1E7FF900FF787C8C58#128 :=
  ⟨_, _, exec_build _, exec_anon6 _, by rw [h]; exact test_anon6_aes_w2⟩

end Sys2Proof.Tests
end

