-- ==== Sys2Proof/Proofs/CipherByteOrder.lean ====
section
/-! PROOF. The byte order at the cipher interface (R11, R54): `be128` and `unbe128` agree bit by bit, so each undoes the other, and the value of a block is the base-256 sum of its bytes. -/

namespace Sys2Proof.Machine

/-- R11: bit i of byte k of a packed value is bit 120 − 8k + i of the value. -/
theorem unbe128_getLsbD (v : Block) {k i : Nat} (hk : k < 16) (hi : i < 8) :
    (unbe128 v)[k].getLsbD i = v.getLsbD (120 - 8 * k + i) := by
  rw [unbe128_getElem v hk, BitVec.getLsbD_extractLsb']
  simp [hi]

theorem unbe128_be128 (b : Bytes16) : unbe128 (be128 b) = b := by
  refine Vector.ext fun k hk => BitVec.eq_of_getLsbD_eq fun i hi => ?_
  have hbyte : 15 - (120 - 8 * k + i) / 8 = k := by omega
  have hbit : (120 - 8 * k + i) % 8 = i := by omega
  rw [unbe128_getLsbD _ hk hi, be128_getLsbD b (by omega)]
  simp only [hbyte, hbit]

theorem be128_unbe128 (v : Block) : be128 (unbe128 v) = v := by
  refine BitVec.eq_of_getLsbD_eq fun i hi => ?_
  have hpos : 120 - 8 * (15 - i / 8) + i % 8 = i := by omega
  rw [be128_getLsbD _ hi, unbe128_getLsbD v (by omega) (by omega), hpos]

/-- The low m base-256 digits of a number make up its residue. -/
theorem sum_byte_mul_pow (n m : Nat) :
    ∑ k ∈ Finset.range m, n / 2 ^ (8 * k) % 2 ^ 8 * 2 ^ (8 * k) = n % 2 ^ (8 * m) := by
  induction m with
  | zero => simp [Nat.mod_one]
  | succ m ih => rw [Finset.sum_range_succ, ih, Nat.mul_succ, Nat.pow_add, Nat.mod_mul, Nat.mul_comm (2 ^ (8 * m))]

/-- R11: a block is the big-endian sum of its bytes. -/
theorem toNat_eq_sum_unbe128 (v : Block) :
    v.toNat = ∑ k : Fin 16, (unbe128 v)[k].toNat * 2 ^ (8 * (15 - k.val)) := by
  have hbyte (k : Fin 16) : (unbe128 v)[k].toNat = v.toNat / 2 ^ (8 * (15 - k.val)) % 2 ^ 8 := by
    rw [Fin.getElem_fin, unbe128_getElem v k.isLt, BitVec.extractLsb'_toNat, Nat.shiftRight_eq_div_pow, Nat.mul_sub]
  calc v.toNat = v.toNat % 2 ^ (8 * 16) := (Nat.mod_eq_of_lt v.isLt).symm
    _ = ∑ k ∈ Finset.range 16, v.toNat / 2 ^ (8 * k) % 2 ^ 8 * 2 ^ (8 * k) := (sum_byte_mul_pow _ 16).symm
    _ = ∑ k ∈ Finset.range 16, v.toNat / 2 ^ (8 * (15 - k)) % 2 ^ 8 * 2 ^ (8 * (15 - k)) :=
        (Finset.sum_range_reflect (fun k => v.toNat / 2 ^ (8 * k) % 2 ^ 8 * 2 ^ (8 * k)) 16).symm
    _ = ∑ k : Fin 16, v.toNat / 2 ^ (8 * (15 - k.val)) % 2 ^ 8 * 2 ^ (8 * (15 - k.val)) :=
        (Fin.sum_univ_eq_sum_range (fun k => v.toNat / 2 ^ (8 * (15 - k)) % 2 ^ 8 * 2 ^ (8 * (15 - k))) 16).symm
    _ = ∑ k : Fin 16, (unbe128 v)[k].toNat * 2 ^ (8 * (15 - k.val)) := by simp only [hbyte]

/-- R11: the value of a 16-byte string is the big-endian sum of its bytes. -/
theorem be128_toNat (b : Bytes16) :
    (be128 b).toNat = ∑ k : Fin 16, b[k].toNat * 2 ^ (8 * (15 - k.val)) := by
  rw [toNat_eq_sum_unbe128, unbe128_be128]

/-- Settles O30: the two conversions are read bit by bit, and the sum is the base-256 expansion of the packed value. -/
theorem cipherByteOrder : Obligations.CipherByteOrder := fun b v =>
  ⟨unbe128_be128 b, be128_unbe128 v, fun k => unbe128_getElem v k.isLt, be128_toNat b⟩

end Sys2Proof.Machine
end

/-! PROOF. What the turns of a run do, as the statements about the state use it: whose turn a step takes (R60), every
way a pending word completes (R40, R203), and what a host turn does to the engine's inputs (R39, R57). -/

namespace Sys2Proof.Machine

/-! ### Whose turn it is (R60) -/

theorem step_of_host {s : State} (h : nextTurn s = .host) : step s = hostTurn (dropTurn s) := by
  simp only [step, h, takeTurn]

theorem step_of_engine {s : State} (h : nextTurn s = .engine) : step s = engineTurn (dropTurn s) := by
  simp only [step, h, takeTurn]

theorem step_of_reset {s : State} (h : nextTurn s = .reset) : step s = .next (resetEngine (dropTurn s)) := by
  simp only [step, h, takeTurn]

theorem nextTurn_of_schedule {s : State} {turn : Turn} {rest : List Turn} (h : s.env.schedule = turn :: rest) :
    nextTurn s = turn := by
  simp only [nextTurn, h]

/-- R40: past the end of the schedule a pending word is completed. -/
theorem nextTurn_of_pend {s : State} {w : Word} (h : s.env.schedule = []) (hp : s.pend = some w) :
    nextTurn s = .engine := by
  simp [nextTurn, h, busy, hp]

/-! ### The engine's turn (R40, R202) -/

theorem engineTurn_of_command {s : State} {w : Word} {i : Instr} (hp : s.pend = some w) (hd : decode w = .command i) :
    engineTurn s = exec i s := by
  simp only [engineTurn, hp, hd]

theorem engineTurn_of_illegal {s : State} {w : Word} {why : Illegal} (hp : s.pend = some w)
    (hd : decode w = .illegal why) : engineTurn s = .next (raise .illegalCommand s) := by
  simp only [engineTurn, hp, hd]

theorem engineTurn_of_idle {s : State} (hp : s.pend = none) : engineTurn s = .next s := by
  simp only [engineTurn, hp]

/-- The ANON command of a family (R75). -/
def anonCommand : Family → Instr
  | .v4 => .anon4
  | .v6 => .anon6

/-- R39: the words whose acceptance latches are the words of the two ANON commands. -/
theorem isAnon_iff {w : Word} :
    isAnon w = true ↔ decode w = .command .anon4 ∨ decode w = .command .anon6 := by
  unfold isAnon
  split <;> simp_all

theorem isAnon_of_decode {w : Word} {f : Family} (h : decode w = .command (anonCommand f)) : isAnon w = true :=
  isAnon_iff.mpr (by cases f; exacts [.inl h, .inr h])

/-- Every way the pending word `w` completes from `s`, and the state it leaves (R40, R203): a case for each command, for
each of its errors (R125, R180), and for an illegal word (R202). -/
inductive Completion (w : Word) (s : State) : State → Prop
  | nop (hd : decode w = .command .nop) : Completion w s (retire s)
  | keyclr (hd : decode w = .command .keyclr) : Completion w s (succeed (clearKey s))
  | keyb (b : Byte) (hd : decode w = .command (.keyb b)) : Completion w s (succeed (appendKeyByte b s))
  | build (hd : decode w = .command .build) (hk : s.keycnt = 32) :
      Completion w s (succeed (installContext Config.E s))
  | keyLength (hd : decode w = .command .build) (hk : s.keycnt ≠ 32) : Completion w s (raise .keyLength s)
  | anon (f : Family) (hd : decode w = .command (anonCommand f)) (hc : s.ctxv = true) :
      Completion w s (succeed (finishAnon Config.E f s))
  | noContext (f : Family) (hd : decode w = .command (anonCommand f)) (hc : s.ctxv = false) :
      Completion w s (raise .noContext s)
  | illegal (why : Illegal) (hd : decode w = .illegal why) : Completion w s (raise .illegalCommand s)

theorem Completion.of_anon {w : Word} {s : State} (f : Family) (hd : decode w = .command (anonCommand f)) :
    Completion w s (anonWith Config.E f s) := by
  obtain ⟨hc, e⟩ | ⟨hc, e⟩ := anonWith_cases Config.E f s
  · exact e ▸ .anon f hd hc
  · exact e ▸ .noContext f hd hc

/-- Each command ends in one of its cases. -/
theorem Completion.of_exec {w : Word} {i : Instr} {s t : State} (hd : decode w = .command i)
    (h : exec i s = .next t) : Completion w s t := by
  cases i with
  | nop => cases h; exact .nop hd
  | keyclr => cases h; exact .keyclr hd
  | keyb b => cases h; exact .keyb b hd
  | build =>
    cases h
    obtain ⟨hk, e⟩ | ⟨hk, e⟩ := buildWith_cases Config.E s
    · exact e ▸ .build hd hk
    · exact e ▸ .keyLength hd hk
  | anon4 => cases h; exact .of_anon .v4 hd
  | anon6 => cases h; exact .of_anon .v6 hd

/-- The engine's turn with a word pending is its completion. -/
theorem engineTurn_completion {w : Word} {s t : State} (hp : s.pend = some w) (h : engineTurn s = .next t) :
    Completion w s t := by
  cases hd : decode w with
  | command i => exact .of_exec hd (engineTurn_of_command hp hd ▸ h)
  | illegal why =>
    rw [engineTurn_of_illegal hp hd] at h
    cases h
    exact .illegal why hd

section
variable {w : Word} {s t : State}

/-- R40, R203: nothing is pending after a completion. -/
theorem Completion.pend (h : Completion w s t) : t.pend = none := by
  cases h <;> rfl

/-- The latches are written by acceptance alone (R39), DIN by the host alone (R22). -/
theorem Completion.inputs (h : Completion w s t) : t.din = s.din ∧ t.latv = s.latv ∧ t.latf = s.latf := by
  cases h <;> exact ⟨rfl, rfl, rfl⟩

/-- R33, R126: only BUILD with 32 key bytes touches the context. -/
theorem Completion.context (h : Completion w s t) :
    SameContext s t ∨
      decode w = .command .build ∧ s.keycnt = 32 ∧ t = succeed (installContext Config.E s) := by
  cases h with
  | build hd hk => exact .inr ⟨hd, hk, rfl⟩
  | _ => exact .inl ⟨rfl, rfl, rfl, rfl⟩

/-- R30, R31: only KEYCLR and KEYB touch the key buffer and its counter. -/
theorem Completion.key (h : Completion w s t) :
    (t.keybuf = s.keybuf ∧ t.keycnt = s.keycnt) ∨
      (decode w = .command .keyclr ∧ t = succeed (clearKey s)) ∨
      ∃ b, decode w = .command (.keyb b) ∧ t = succeed (appendKeyByte b s) := by
  cases h with
  | keyclr hd => exact .inr (.inl ⟨hd, rfl⟩)
  | keyb b hd => exact .inr (.inr ⟨b, hd, rfl⟩)
  | _ => exact .inl ⟨rfl, rfl⟩

/-- R23: only an ANON command with a context touches RES. -/
theorem Completion.result (h : Completion w s t) :
    t.res = s.res ∨ s.ctxv = true ∧ isAnon w = true := by
  cases h with
  | anon f hd hc => exact .inr ⟨hc, isAnon_of_decode hd⟩
  | _ => exact .inl rfl

/-- R27, R120: only NOP leaves the outcome code alone. -/
theorem Completion.error (h : Completion w s t) : t.err = s.err ∨ decode w ≠ .command .nop := by
  cases h with
  | nop => exact .inl rfl
  | anon f hd | noContext f hd => right; cases f <;> simp [hd, anonCommand]
  | _ => right; simp [*]

end

/-! ### The host's turn (R39, R57, R80) -/

theorem hostTurn_of_end {s : State} (h : s.env.prog[s.env.hpc]? = none) : hostTurn s = .next s := by
  simp only [hostTurn, h]

theorem hostTurn_of_branch {s : State} {m : Word} {n : Nat} (h : s.env.prog[s.env.hpc]? = some (.bnz m n)) :
    hostTurn s = .next (hostBranch m n s) := by
  simp only [hostTurn, h]

theorem hostTurn_of_read {s : State} {bits addr : Nat} (h : s.env.prog[s.env.hpc]? = some (.read bits addr)) :
    hostTurn s = hostRead bits addr s := by
  simp only [hostTurn, h]

theorem hostTurn_of_write {s : State} {bits addr : Nat} {v : Word}
    (h : s.env.prog[s.env.hpc]? = some (.write bits addr v)) : hostTurn s = hostWrite bits addr v s := by
  simp only [hostTurn, h]

theorem regOffset_lt (r : Reg) : regOffset r < 64 := by
  cases r <;> simp only [regOffset] <;> omega

/-- R51: every register stands in the window. -/
theorem windowOffset_reg (base : Nat) (r : Reg) : windowOffset base (base + regOffset r) = some (regOffset r) :=
  windowOffset_eq_some.mpr ⟨rfl, regOffset_lt r⟩

/-- A 32-bit write of a register does to the engine what the window does with it (R57). -/
theorem hostWrite_reg {s u : State} {r : Reg} {v : Word} (h : writeReg r v s = some u) :
    hostWrite 32 (s.env.base + regOffset r) v s = .next (hostAdvance .done u.env.t u) := by
  have hw : busWrite 32 (regOffset r) v s = some u := busWrite_eq_some.mpr ⟨rfl, r, rfl, h⟩
  simp only [hostWrite, windowOffset_reg, hw]

/-- A 32-bit read of a register answers its value (R57). -/
theorem hostRead_reg (s : State) (r : Reg) :
    hostRead 32 (s.env.base + regOffset r) s = .next (hostAdvance (.data (readReg s r)) (readReg s r) s) := by
  have hr : busRead s 32 (regOffset r) = some (readReg s r) := busRead_eq_some.mpr ⟨rfl, r, rfl, rfl⟩
  simp only [hostRead, windowOffset_reg, hr]

/-- A host turn is an answered write of a register, or leaves PEND, DIN and the latches alone. -/
theorem hostTurn_write_or_keeps {s t : State} (h : hostTurn s = .next t) :
    (t.din = s.din ∧ t.pend = s.pend ∧ t.latv = s.latv ∧ t.latf = s.latf) ∨
      ∃ r v u, s.env.prog[s.env.hpc]? = some (.write 32 (s.env.base + regOffset r) v) ∧ writeReg r v s = some u ∧
        t = hostAdvance .done u.env.t u := by
  obtain ⟨-, rfl⟩ | ⟨m, n, -, rfl⟩ | ⟨_, _, _, _, -, -, -, rfl⟩ | ⟨_, _, v, _, u, hop, hoff, hw, rfl⟩ |
    ⟨-, _, _, rfl⟩ := hostTurn_cases h
  case inr.inr.inr.inl =>
    obtain ⟨rfl, r, rfl, hr⟩ := busWrite_eq_some.mp hw
    obtain ⟨rfl, -⟩ := windowOffset_eq_some.mp hoff
    exact .inr ⟨r, v, u, hop, hr, rfl⟩
  all_goals exact .inl ⟨rfl, rfl, rfl, rfl⟩

/-- What a host turn does to DIN, PEND and the latches: nothing, a write of one word of DIN (R57), or the acceptance of a
command word (R39). -/
theorem hostTurn_inputs {s t : State} (h : hostTurn s = .next t) :
    (t.din = s.din ∧ t.pend = s.pend ∧ t.latv = s.latv ∧ t.latf = s.latf) ∨
      (∃ k v, s.env.prog[s.env.hpc]? = some (.write 32 (s.env.base + regOffset (.din k)) v) ∧
        t.pend = s.pend ∧ t.latv = s.latv ∧ t.latf = s.latf) ∨
      ∃ w, s.pend = none ∧ t.din = s.din ∧ t.pend = some w ∧ t.latv = (if isAnon w then s.din else s.latv) ∧
        t.latf = if isAnon w then w.extractLsb' 8 1 else s.latf := by
  obtain hkeep | ⟨r, v, u, hop, hr, rfl⟩ := hostTurn_write_or_keeps h
  · exact .inl hkeep
  obtain ⟨-, rfl⟩ | ⟨-, rfl⟩ | ⟨k, rfl, rfl⟩ := writeReg_cases hr
  · obtain ⟨hp, e⟩ | ⟨p, hp, e⟩ := offer_cases v s
    · rw [e]; exact .inr (.inr ⟨v, hp, rfl, rfl, rfl, rfl⟩)
    · rw [e]; exact .inl ⟨rfl, rfl, rfl, rfl⟩
  · exact .inl ⟨rfl, rfl, rfl, rfl⟩
  · exact .inr (.inl ⟨k, v, hop, rfl, rfl, rfl⟩)

/-- R212: a host turn leaves a pending word pending. -/
theorem hostTurn_pend {s t : State} {w : Word} (hp : s.pend = some w) (h : hostTurn s = .next t) :
    t.pend = some w := by
  obtain ⟨-, e, -⟩ | ⟨_, _, -, e, -⟩ | ⟨_, hn, -⟩ := hostTurn_inputs h
  · rw [e, hp]
  · rw [e, hp]
  · rw [hp] at hn; cases hn

/-! ### One step -/

/-- A step is a reset, a host turn, or an engine turn; the last passes with nothing pending, or is the completion of the
pending word. -/
theorem step_effect {s t : State} (h : step s = .next t) :
    nextTurn s = .reset ∧ t = resetEngine (dropTurn s) ∨
      nextTurn s = .host ∧ hostTurn (dropTurn s) = .next t ∨
      nextTurn s = .engine ∧ (t = dropTurn s ∨ ∃ w, s.pend = some w ∧ Completion w (dropTurn s) t) := by
  obtain ⟨hn, h⟩ | ⟨hn, h⟩ | ⟨hn, h⟩ := step_cases h
  · exact .inr (.inl ⟨hn, h⟩)
  · obtain ⟨-, rfl⟩ | ⟨w, hp, -⟩ := engineTurn_cases h
    · exact .inr (.inr ⟨hn, .inl rfl⟩)
    · exact .inr (.inr ⟨hn, .inr ⟨w, hp, engineTurn_completion hp h⟩⟩)
  · exact .inl ⟨hn, h⟩

/-- The registers that only a completion or a reset writes: the context, RES, ERR and the key buffer. -/
structure EngineKept (s t : State) : Prop where
  context : SameContext s t
  res : t.res = s.res
  err : t.err = s.err
  keybuf : t.keybuf = s.keybuf
  keycnt : t.keycnt = s.keycnt

theorem dropTurn_engineKept (s : State) : EngineKept s (dropTurn s) :=
  ⟨⟨rfl, rfl, rfl, rfl⟩, rfl, rfl, rfl, rfl⟩

/-- R43, R57: the host writes none of them. -/
theorem hostTurn_engineKept {s t : State} (h : hostTurn s = .next t) : EngineKept s t := by
  obtain ⟨hres, hctxv, herr, hkeycnt, hkeybuf, hck, hpad, hmp, -⟩ := hostTurn_keeps h
  exact ⟨⟨hctxv, hck, hpad, hmp⟩, hres, herr, hkeybuf, hkeycnt⟩

/-- A step that writes one of them is a reset or a completion. -/
theorem step_completes {s t : State} (h : step s = .next t) (hchange : ¬EngineKept s t) :
    nextTurn s = .reset ∨ nextTurn s = .engine ∧ ∃ w, s.pend = some w ∧ Completion w (dropTurn s) t := by
  obtain ⟨hn, -⟩ | ⟨-, h⟩ | ⟨hn, rfl | hc⟩ := step_effect h
  · exact .inl hn
  · obtain ⟨hcontext, hres, herr, hkeybuf, hkeycnt⟩ := hostTurn_engineKept h
    exact absurd ⟨hcontext, hres, herr, hkeybuf, hkeycnt⟩ hchange
  · exact absurd (dropTurn_engineKept s) hchange
  · exact .inr ⟨hn, hc⟩

end Sys2Proof.Machine

/-! PROOF. The three invariants of a run (R37, R30, R39): they hold at reset and every step keeps them. -/

namespace Sys2Proof.Machine

theorem ContextInv.of_sameContext {s t : State} (h : SameContext s t) (hs : ContextInv s) : ContextInv t := by
  obtain ⟨hctxv, -, hpad, hmp⟩ := h
  intro hc p
  rw [hpad, hmp]
  exact hs (hctxv ▸ hc) p

theorem KeybufInv.of_eq {s t : State} (hbuf : t.keybuf = s.keybuf) (hcnt : t.keycnt = s.keycnt) (hs : KeybufInv s) :
    KeybufInv t := by
  intro k hk
  rw [hbuf]
  exact hs k (hcnt ▸ hk)

theorem LatchInv.of_eq {s t : State} (hpend : t.pend = s.pend) (hlatf : t.latf = s.latf) (hs : LatchInv s) :
    LatchInv t := by
  intro w hw
  rw [hlatf]
  exact hs w (hpend ▸ hw)

/-- With nothing pending there is no latched operand to speak of. -/
theorem LatchInv.of_idle {s : State} (h : s.pend = none) : LatchInv s := by
  intro w hw
  rw [h] at hw
  cases hw

/-- R133: BUILD installs the masked pads of its own pad. -/
theorem contextInv_installContext (E : Bytes16 → Bytes16 → Bytes16) (s : State) : ContextInv (installContext E s) := by
  intro _ p
  simp [maskedPads]

/-- R41, R121: a zero buffer holds no byte beyond the count. -/
theorem keybufInv_clearKey (s : State) : KeybufInv (clearKey s) := by
  intro k _
  simp

/-- R122: the new byte stands below the new count. -/
theorem keybufInv_appendKeyByte {s : State} (b : Byte) (hs : KeybufInv s) : KeybufInv (appendKeyByte b s) := by
  intro k hk
  rw [appendKeyByte_keycnt, keycntSucc_toNat] at hk
  have hpos : k.val ≠ s.keycnt.toNat := by omega
  rw [Fin.getElem_fin, appendKeyByte_getElem b s k.isLt, if_neg hpos]
  exact hs k (by omega)

/-- Settles O42: no context is installed, the buffer is zero, and nothing is pending. -/
theorem invariantHoldsAtReset : Obligations.InvariantHoldsAtReset where
  context hc := Bool.noConfusion (show false = true from hc)
  keybuf := keybufInv_clearKey State.reset
  latch := .of_idle rfl

theorem engineInv_dropTurn {s : State} (h : EngineInv s) : EngineInv (dropTurn s) :=
  ⟨h.context, h.keybuf, h.latch⟩

/-- R230: a reset turn gives the invariants' fields the values of the reset state. -/
theorem engineInv_resetEngine (s : State) : EngineInv (resetEngine s) :=
  ⟨invariantHoldsAtReset.context, invariantHoldsAtReset.keybuf, invariantHoldsAtReset.latch⟩

/-- The host touches the invariants' fields by acceptance alone, which latches the family bit of the word (R39). -/
theorem engineInv_hostTurn {s t : State} (hs : EngineInv s) (h : hostTurn s = .next t) : EngineInv t := by
  have hkept := hostTurn_engineKept h
  refine ⟨hs.context.of_sameContext hkept.context, hs.keybuf.of_eq hkept.keybuf hkept.keycnt, ?_⟩
  obtain ⟨-, hpend, -, hlatf⟩ | ⟨_, _, -, hpend, -, hlatf⟩ | ⟨w, -, -, hpend, -, hlatf⟩ := hostTurn_inputs h
  · exact hs.latch.of_eq hpend hlatf
  · exact hs.latch.of_eq hpend hlatf
  · intro w' hw' hanon
    obtain rfl : w = w' := Option.some.inj (hpend ▸ hw')
    rw [hlatf, if_pos hanon]

/-- A completion ends the latch (R40), replaces the context by a whole one or not at all (R126), and clears the buffer or
appends to it (R121, R122). -/
theorem engineInv_completion {w : Word} {s t : State} (hs : EngineInv s) (h : Completion w s t) : EngineInv t where
  context := by
    obtain hsame | ⟨-, -, rfl⟩ := h.context
    · exact hs.context.of_sameContext hsame
    · exact contextInv_installContext Config.E s
  keybuf := by
    obtain ⟨hbuf, hcnt⟩ | ⟨-, rfl⟩ | ⟨b, -, rfl⟩ := h.key
    · exact hs.keybuf.of_eq hbuf hcnt
    · exact keybufInv_clearKey s
    · exact keybufInv_appendKeyByte b hs.keybuf
  latch := .of_idle h.pend

/-- Settles O43: turn by turn, a reset, a host turn, an idle turn, or a completion. -/
theorem stepKeepsInvariant : Obligations.StepKeepsInvariant := by
  intro s t hs h
  have hd := engineInv_dropTurn hs
  obtain ⟨-, rfl⟩ | ⟨-, h⟩ | ⟨-, rfl | ⟨w, -, h⟩⟩ := step_effect h
  · exact engineInv_resetEngine _
  · exact engineInv_hostTurn hd h
  · exact hd
  · exact engineInv_completion hd h

end Sys2Proof.Machine

/-! PROOF. What each register of the state can change by (R22, R23, R27, R30, R31, R33): each statement reads off the
completions that write the register; a host turn and an idle turn write none but the inputs. -/

namespace Sys2Proof.Machine

/-- Settles O44: of the completions, BUILD with 32 key bytes alone installs a context. -/
theorem contextChangesOnlyByBuild : Obligations.ContextChangesOnlyByBuild := by
  intro s t h hchange
  refine (step_completes h fun hkept => hchange hkept.context).imp_right ?_
  rintro ⟨hn, w, hp, hc⟩
  obtain ⟨hd, hk, rfl⟩ := hc.context.resolve_left hchange
  exact ⟨hn, hk, rfl, w, hp, hd⟩

/-- Settles O45: of the completions, an ANON command with a context alone writes RES. -/
theorem resultChangesOnlyByAnon : Obligations.ResultChangesOnlyByAnon := by
  intro s t h hchange
  refine (step_completes h fun hkept => hchange hkept.res).imp_right ?_
  rintro ⟨hn, w, hp, hc⟩
  obtain ⟨hctxv, hanon⟩ := hc.result.resolve_left hchange
  exact ⟨hn, hctxv, w, hp, isAnon_iff.mp hanon⟩

/-- Settles O46: of the completions, NOP alone leaves ERR. -/
theorem errorCodeChangesOnlyAtCompletion : Obligations.ErrorCodeChangesOnlyAtCompletion := by
  intro s t h hchange
  refine (step_completes h fun hkept => hchange hkept.err).imp_right ?_
  rintro ⟨hn, w, hp, hc⟩
  exact ⟨hn, hc.pend, w, hp, hc.error.resolve_left hchange⟩

/-- Settles O47: of the completions, KEYCLR and KEYB alone write the key buffer and its counter. -/
theorem keyChangesOnlyByKeyCommands : Obligations.KeyChangesOnlyByKeyCommands := by
  intro s t h hchange
  have hkey : ¬(t.keybuf = s.keybuf ∧ t.keycnt = s.keycnt) := not_and_or.mpr hchange
  refine (step_completes h fun hkept => hkey ⟨hkept.keybuf, hkept.keycnt⟩).imp_right ?_
  rintro ⟨hn, w, hp, hc⟩
  obtain ⟨hd, -⟩ | ⟨b, hd, -⟩ := hc.key.resolve_left hkey
  · exact ⟨hn, w, hp, .inl hd⟩
  · exact ⟨hn, w, hp, .inr ⟨b, hd⟩⟩

/-- R22: outside a reset, DIN changes by a host write of one of its words alone. -/
theorem din_of_step {s t : State} (h : step s = .next t) :
    t.din = s.din ∨ nextTurn s = .reset ∨
      nextTurn s = .host ∧ ∃ (k : Fin 4) (v : Word),
        s.env.prog[s.env.hpc]? = some (.write 32 (s.env.base + 0x10 + 4 * k.val) v) := by
  obtain ⟨hn, -⟩ | ⟨hn, h⟩ | ⟨-, rfl | ⟨w, -, hc⟩⟩ := step_effect h
  · exact .inr (.inl hn)
  · obtain ⟨hdin, -⟩ | ⟨k, v, hop, -⟩ | ⟨w, -, hdin, -⟩ := hostTurn_inputs h
    · exact .inl hdin
    · exact .inr (.inr ⟨hn, k, v, (Nat.add_assoc s.env.base 0x10 (4 * k.val)).symm ▸ hop⟩)
    · exact .inl hdin
  · exact .inl rfl
  · obtain ⟨hdin, -⟩ := hc.inputs
    exact .inl hdin

/-- R39: outside a reset, the latches change by the acceptance of an ANON word alone. -/
theorem latches_of_step {s t : State} (h : step s = .next t) :
    (t.latv = s.latv ∧ t.latf = s.latf) ∨ nextTurn s = .reset ∨
      nextTurn s = .host ∧ s.pend = none ∧ t.latv = s.din ∧ ∃ w, t.pend = some w ∧ isAnon w = true := by
  obtain ⟨hn, -⟩ | ⟨hn, h⟩ | ⟨-, rfl | ⟨w, -, hc⟩⟩ := step_effect h
  · exact .inr (.inl hn)
  · obtain ⟨-, -, hlatch⟩ | ⟨_, _, -, -, hlatch⟩ | ⟨w, hidle, -, hpend, hlatv, hlatf⟩ := hostTurn_inputs h
    · exact .inl hlatch
    · exact .inl hlatch
    · by_cases hanon : isAnon w = true
      · exact .inr (.inr ⟨hn, hidle, by simpa [hanon] using hlatv, w, hpend, hanon⟩)
      · exact .inl (by simpa [hanon] using And.intro hlatv hlatf)
  · exact .inl ⟨rfl, rfl⟩
  · obtain ⟨-, hlatch⟩ := hc.inputs
    exact .inl hlatch

/-- Settles O48, from what a step can do to DIN and to the latches. -/
theorem inputsChangeOnlyByHost : Obligations.InputsChangeOnlyByHost := fun _ _ h =>
  ⟨fun hchange => (din_of_step h).resolve_left hchange,
    fun hchange => (latches_of_step h).resolve_left fun ⟨hlatv, hlatf⟩ => hchange.elim (· hlatv) (· hlatf)⟩

end Sys2Proof.Machine

/-! PROOF. What the host cannot read influences nothing it observes (R43, R109), outside the completion of an ANON command
with a context: each operation takes two states with the same host view to two states with the same host view. -/

namespace Sys2Proof.Machine

open Host (Outcome)

/-! ### Two states with the same host view -/

/-- The registers that the host cannot read (R43). -/
structure Hidden where
  keybuf : Bytes32
  ck : Bytes16
  pad : Block
  mp : Vector Block 128
  latv : Block
  latf : BitVec 1
  scratch : Scratch

/-- The state with other values in the registers that the host cannot read. -/
def State.withHidden (s : State) (x : Hidden) : State :=
  { s with
    keybuf := x.keybuf, ck := x.ck, pad := x.pad, mp := x.mp, latv := x.latv, latf := x.latf, scratch := x.scratch }

theorem SameHostView.exists_withHidden {s s' : State} (h : SameHostView s s') : ∃ x, s' = s.withHidden x :=
  ⟨⟨s'.keybuf, s'.ck, s'.pad, s'.mp, s'.latv, s'.latf, s'.scratch⟩, h⟩

@[simp] theorem withHidden_ctxv (s : State) (x : Hidden) : (s.withHidden x).ctxv = s.ctxv := rfl
@[simp] theorem withHidden_keycnt (s : State) (x : Hidden) : (s.withHidden x).keycnt = s.keycnt := rfl
@[simp] theorem withHidden_pend (s : State) (x : Hidden) : (s.withHidden x).pend = s.pend := rfl
@[simp] theorem withHidden_env (s : State) (x : Hidden) : (s.withHidden x).env = s.env := rfl
@[simp] theorem busy_withHidden (s : State) (x : Hidden) : busy (s.withHidden x) = busy s := rfl
@[simp] theorem nextTurn_withHidden (s : State) (x : Hidden) : nextTurn (s.withHidden x) = nextTurn s := rfl

theorem SameHostView.env {s s' : State} (h : SameHostView s s') : s'.env = s.env := by
  rw [h]

theorem hostAdvance_sameHostView {s s' : State} (h : SameHostView s s') (r : BusReply) (t : Word) :
    SameHostView (hostAdvance r t s) (hostAdvance r t s') := by
  obtain ⟨x, rfl⟩ := h.exists_withHidden
  rfl

/-- What two turns from the same host view may answer: next states with the same host view, or the same stop. -/
inductive SameOutcome : Outcome State Fault Refusal → Outcome State Fault Refusal → Prop
  | next {t t' : State} (h : SameHostView t t') : SameOutcome (.next t) (.next t')
  | fault (r : Fault) : SameOutcome (.fault r) (.fault r)
  | refused (r : Refusal) : SameOutcome (.refused r) (.refused r)

section
variable {o : Outcome State Fault Refusal}

theorem SameOutcome.of_next {t : State} (h : SameOutcome (.next t) o) : ∃ t', o = .next t' ∧ SameHostView t t' := by
  cases h with
  | next h => exact ⟨_, rfl, h⟩

theorem SameOutcome.of_fault {r : Fault} (h : SameOutcome (.fault r) o) : o = .fault r := by
  cases h
  rfl

theorem SameOutcome.of_refused {r : Refusal} (h : SameOutcome (.refused r) o) : o = .refused r := by
  cases h
  rfl

end

/-! ### The host's turn -/

section
variable (s : State) (x : Hidden)

/-- R57: a read sees the host view alone. -/
theorem busRead_withHidden (bits off : Nat) : busRead (s.withHidden x) bits off = busRead s bits off := by
  have hreg : readReg (s.withHidden x) = readReg s := by
    funext r
    cases r <;> rfl
  simp only [busRead, hreg]

theorem offer_sameHostView (w : Word) : SameHostView (offer w s) (offer w (s.withHidden x)) := by
  unfold offer
  rw [busy_withHidden]
  split
  · rfl
  · unfold accept
    cases isAnon w <;> rfl

/-- A write is answered or not by its register alone, and its effect is on the host view or on the latches. -/
theorem writeReg_withHidden (r : Reg) (v : Word) :
    Option.Rel SameHostView (writeReg r v s) (writeReg r v (s.withHidden x)) := by
  cases r with
  | cmd => exact .some (offer_sameHostView s x v)
  | status => exact .some rfl
  | din k => exact .some rfl
  | res k => exact .none

theorem busWrite_withHidden (bits off : Nat) (v : Word) :
    Option.Rel SameHostView (busWrite bits off v s) (busWrite bits off v (s.withHidden x)) := by
  unfold busWrite
  split
  · cases regAt off with
    | none => exact .none
    | some r => exact writeReg_withHidden s x r v
  · exact .none

theorem hostError_withHidden (t : Word) : SameOutcome (hostError t s) (hostError t (s.withHidden x)) := by
  unfold hostError
  rw [withHidden_env]
  split
  · exact .fault _
  · exact .next rfl

theorem hostRead_withHidden (bits addr : Nat) :
    SameOutcome (hostRead bits addr s) (hostRead bits addr (s.withHidden x)) := by
  unfold hostRead
  rw [withHidden_env]
  split
  · exact .refused _
  · rw [busRead_withHidden]
    split
    · exact .next rfl
    · exact hostError_withHidden { s with draws := s.draws + 1 } x _

theorem hostWrite_withHidden (bits addr : Nat) (v : Word) :
    SameOutcome (hostWrite bits addr v s) (hostWrite bits addr v (s.withHidden x)) := by
  unfold hostWrite
  rw [withHidden_env]
  split
  · exact .refused _
  · rename_i off _
    have hw := busWrite_withHidden s x bits off v
    generalize busWrite bits off v s = u, busWrite bits off v (s.withHidden x) = u' at hw
    cases hw with
    | none => exact hostError_withHidden s x _
    | some h =>
      simp only [h.env]
      exact .next (hostAdvance_sameHostView h _ _)

theorem hostTurn_withHidden : SameOutcome (hostTurn s) (hostTurn (s.withHidden x)) := by
  unfold hostTurn
  rw [withHidden_env]
  split
  · exact .next rfl
  · exact hostRead_withHidden s x _ _
  · exact hostWrite_withHidden s x _ _ _
  · exact .next rfl

/-! ### The engine's turn -/

theorem buildWith_withHidden (E : Bytes16 → Bytes16 → Bytes16) :
    SameHostView (buildWith E s) (buildWith E (s.withHidden x)) := by
  unfold buildWith
  rw [withHidden_keycnt]
  split <;> rfl

/-- R180: without a context the hidden operand is not used. -/
theorem anonWith_withHidden (E : Bytes16 → Bytes16 → Bytes16) (f : Family) (hc : s.ctxv = false) :
    SameHostView (anonWith E f s) (anonWith E f (s.withHidden x)) := by
  unfold anonWith
  rw [withHidden_ctxv, hc]
  rfl

/-- Every command but ANON with a context answers from the host view alone. -/
theorem exec_withHidden (i : Instr) (hanon : s.ctxv = true → i ≠ .anon4 ∧ i ≠ .anon6) :
    SameOutcome (exec i s) (exec i (s.withHidden x)) := by
  have hc (h : i = .anon4 ∨ i = .anon6) : s.ctxv = false := by
    by_contra hctxv
    obtain ⟨h4, h6⟩ := hanon (by simpa using hctxv)
    exact h.elim h4 h6
  cases i with
  | nop | keyclr | keyb b => exact .next rfl
  | build => exact .next (buildWith_withHidden s x _)
  | anon4 => exact .next (anonWith_withHidden s x _ _ (hc (.inl rfl)))
  | anon6 => exact .next (anonWith_withHidden s x _ _ (hc (.inr rfl)))

theorem engineTurn_withHidden (hanon : ¬(s.ctxv = true ∧ ∃ w, s.pend = some w ∧ isAnon w = true)) :
    SameOutcome (engineTurn s) (engineTurn (s.withHidden x)) := by
  have hpend := withHidden_pend s x
  cases hp : s.pend with
  | none =>
    rw [engineTurn_of_idle hp, engineTurn_of_idle (hpend.trans hp)]
    exact .next rfl
  | some w =>
    cases hd : decode w with
    | command i =>
      rw [engineTurn_of_command hp hd, engineTurn_of_command (hpend.trans hp) hd]
      refine exec_withHidden s x i fun hc => ⟨?_, ?_⟩ <;> rintro rfl
      · exact hanon ⟨hc, w, hp, isAnon_iff.mpr (.inl hd)⟩
      · exact hanon ⟨hc, w, hp, isAnon_iff.mpr (.inr hd)⟩
    | illegal why =>
      rw [engineTurn_of_illegal hp hd, engineTurn_of_illegal (hpend.trans hp) hd]
      exact .next rfl

/-- Whose turn is next is in the host view; a reset leaves the same state on both sides (R230). -/
theorem step_withHidden
    (hanon : ¬(nextTurn s = .engine ∧ s.ctxv = true ∧ ∃ w, s.pend = some w ∧ isAnon w = true)) :
    SameOutcome (step s) (step (s.withHidden x)) := by
  have hturn := nextTurn_withHidden s x
  cases hn : nextTurn s with
  | host =>
    rw [step_of_host hn, step_of_host (hturn.trans hn)]
    exact hostTurn_withHidden (dropTurn s) x
  | engine =>
    rw [step_of_engine hn, step_of_engine (hturn.trans hn)]
    exact engineTurn_withHidden (dropTurn s) x fun h => hanon ⟨hn, h⟩
  | reset =>
    rw [step_of_reset hn, step_of_reset (hturn.trans hn)]
    exact .next rfl

end

/-- Settles O50: the two steps have the same outcome, turn by turn. -/
theorem hiddenStateStaysHidden : Obligations.HiddenStateStaysHidden := by
  intro s s' h hanon
  obtain ⟨x, rfl⟩ := h.exists_withHidden
  have hstep := step_withHidden s x hanon
  exact ⟨fun t ht => (ht ▸ hstep).of_next, fun r hr => (hr ▸ hstep).of_fault, fun r hr => (hr ▸ hstep).of_refused⟩

end Sys2Proof.Machine

/-! PROOF. Loading a key and building a context (R31, R122, R125): the counter after any number of KEYB commands, and what
BUILD then answers. -/

namespace Sys2Proof.Machine

theorem runCommands_cons {i : Instr} {s t : State} (h : exec i s = .next t) (rest : List Instr) :
    runCommands (i :: rest) s = runCommands rest t := by
  simp only [runCommands, h]

/-- Two sequences of commands, the second from where the first ends. -/
theorem runCommands_append {xs : List Instr} {s t : State} (h : runCommands xs s = .next t) (ys : List Instr) :
    runCommands (xs ++ ys) s = runCommands ys t := by
  induction xs generalizing s with
  | nil => cases h; rfl
  | cons i rest ih =>
    obtain ⟨u, hu⟩ := exec_next i s
    rw [runCommands_cons hu] at h
    rw [List.cons_append, runCommands_cons hu, ih h]

/-- R31, R122: any number of KEYB completes, counts up to 255, and leaves the context. -/
theorem runCommands_keyb (s : State) (bytes : List Byte) :
    ∃ t, runCommands (bytes.map .keyb) s = .next t ∧ t.keycnt.toNat = min (s.keycnt.toNat + bytes.length) 255 ∧
      SameContext s t := by
  induction bytes generalizing s with
  | nil =>
    have hbound := s.keycnt.isLt
    exact ⟨s, rfl, by simp only [List.length_nil]; omega, rfl, rfl, rfl, rfl⟩
  | cons b rest ih =>
    obtain ⟨t, hrun, hcnt, hcontext⟩ := ih (succeed (appendKeyByte b s))
    refine ⟨t, ?_, ?_, hcontext⟩
    · rw [List.map_cons, runCommands_cons (exec_keyb b s), hrun]
    · rw [hcnt, succeed_keycnt, appendKeyByte_keycnt, keycntSucc_toNat, List.length_cons]
      omega

/-- R31, R121, R122: KEYCLR and any number of KEYB complete, with the number of bytes counted up to 255, and leave the
context. -/
theorem runCommands_keyclr_keyb (s : State) (bytes : List Byte) :
    ∃ t, runCommands (.keyclr :: bytes.map .keyb) s = .next t ∧ t.keycnt.toNat = min bytes.length 255 ∧
      SameContext s t := by
  obtain ⟨t, hrun, hcnt, hcontext⟩ := runCommands_keyb (succeed (clearKey s)) bytes
  refine ⟨t, (runCommands_cons (exec_keyclr s) _).trans hrun, ?_, hcontext⟩
  rw [hcnt]
  simp

/-- Settles O27: the saturated count is 32 exactly when the key has 32 bytes, and BUILD goes by the count. -/
theorem buildAcceptsExactlyThirtyTwoBytes : Obligations.BuildAcceptsExactlyThirtyTwoBytes := by
  intro s bytes
  obtain ⟨u, hrun, hcnt, hcontext⟩ := runCommands_keyclr_keyb s bytes
  have hiff : u.keycnt = 32 ↔ bytes.length = 32 := by
    rw [← BitVec.toNat_inj, hcnt, show (32 : BitVec 8).toNat = 32 from rfl]
    omega
  refine ⟨buildWith Config.E u, (runCommands_append hrun [.build]).trans (runCommands_cons (exec_build u) []), ?_⟩
  obtain ⟨hk, e⟩ | ⟨hk, e⟩ := buildWith_cases Config.E u <;> rw [e]
  · exact ⟨fun _ => ⟨rfl, rfl⟩, fun hlen => absurd (hiff.mp hk) hlen⟩
  · exact ⟨fun hlen => absurd (hiff.mpr hlen) hk, fun _ => ⟨rfl, hcontext⟩⟩

end Sys2Proof.Machine

/-! PROOF. Runs of several steps: a pending word reaches its completion (R40, R251), and the race of a CMD write with a
pending BUILD (R60, R204). -/

namespace Sys2Proof.Machine

/-! ### A host whose accesses are mapped (R55, R56) -/

theorem accessOk_iff {bits off : Nat} : accessOk bits off = true ↔ bits = 32 ∧ off % 4 = 0 := by
  simp [accessOk]

/-- A mapped read is a 32-bit read of a register. -/
theorem opMapped_read {base bits addr : Nat} (h : opMapped base (.read bits addr) = true) :
    ∃ r, bits = 32 ∧ addr = base + regOffset r := by
  simp only [opMapped] at h
  split at h
  case h_1 off hoff =>
    obtain ⟨hok, hreg⟩ := Bool.and_eq_true_iff.mp h
    obtain ⟨r, hr⟩ := Option.isSome_iff_exists.mp hreg
    obtain rfl := regAt_eq_some.mp hr
    exact ⟨r, (accessOk_iff.mp hok).1, (windowOffset_eq_some.mp hoff).1⟩
  case h_2 => cases h

/-- A mapped write is a 32-bit write of a register other than RES. -/
theorem opMapped_write {base bits addr : Nat} {v : Word} (h : opMapped base (.write bits addr v) = true) :
    ∃ r, bits = 32 ∧ addr = base + regOffset r ∧ ∀ k, r ≠ .res k := by
  simp only [opMapped] at h
  split at h
  case h_1 off hoff =>
    obtain ⟨hok, hreg⟩ := Bool.and_eq_true_iff.mp h
    split at hreg
    case h_2 r hres hr =>
      obtain rfl := regAt_eq_some.mp hr
      exact ⟨r, (accessOk_iff.mp hok).1, (windowOffset_eq_some.mp hoff).1, fun k e => hres k e⟩
    all_goals cases hreg
  case h_2 => cases h

/-- R56: every register but RES takes a write. -/
theorem writeReg_of_ne_res {r : Reg} (h : ∀ k, r ≠ .res k) (v : Word) (s : State) : ∃ u, writeReg r v s = some u := by
  cases r with
  | res k => exact absurd rfl (h k)
  | _ => exact ⟨_, rfl⟩

theorem hostTurn_next_of_mapped {s : State} (h : HostProgramMapped s) : ∃ t, hostTurn s = .next t := by
  cases hop : s.env.prog[s.env.hpc]? with
  | none => exact ⟨s, hostTurn_of_end hop⟩
  | some op =>
    have hmapped := h op (List.mem_of_getElem? hop)
    cases op with
    | bnz m n => exact ⟨_, hostTurn_of_branch hop⟩
    | read bits addr =>
      obtain ⟨r, rfl, rfl⟩ := opMapped_read hmapped
      exact ⟨_, (hostTurn_of_read hop).trans (hostRead_reg s r)⟩
    | write bits addr v =>
      obtain ⟨r, rfl, rfl, hr⟩ := opMapped_write hmapped
      obtain ⟨u, hu⟩ := writeReg_of_ne_res hr v s
      exact ⟨_, (hostTurn_of_write hop).trans (hostWrite_reg hu)⟩

/-- A host turn changes neither the program, nor the base, nor the schedule. -/
theorem hostTurn_env {s t : State} (h : hostTurn s = .next t) :
    t.env.prog = s.env.prog ∧ t.env.base = s.env.base ∧ t.env.schedule = s.env.schedule := by
  obtain ⟨-, rfl⟩ | ⟨m, n, -, rfl⟩ | ⟨_, _, _, _, -, -, -, rfl⟩ | ⟨_, _, _, _, u, -, -, hw, rfl⟩ |
    ⟨-, _, _, rfl⟩ := hostTurn_cases h
  case inr.inr.inr.inl =>
    obtain ⟨-, -, -, -, -, -, -, -, -, -, henv⟩ := busWrite_keeps hw
    simp [henv]
  all_goals exact ⟨rfl, rfl, rfl⟩

/-- A host turn before a pending word's completion: the word stays pending, the program stays mapped, and the schedule is
shorter by the turn. -/
theorem step_host_of_mapped {s : State} {w : Word} {rest : List Turn} (hs : s.env.schedule = .host :: rest)
    (hp : s.pend = some w) (hmapped : HostProgramMapped s) :
    ∃ t, step s = .next t ∧ t.pend = some w ∧ HostProgramMapped t ∧ t.env.schedule = rest := by
  obtain ⟨t, ht⟩ := hostTurn_next_of_mapped (s := dropTurn s) hmapped
  obtain ⟨hprog, hbase, hsched⟩ := hostTurn_env ht
  refine ⟨t, (step_of_host (nextTurn_of_schedule hs)).trans ht, hostTurn_pend (s := dropTurn s) hp ht, ?_, ?_⟩
  · unfold HostProgramMapped
    rw [hprog, hbase]
    exact hmapped
  · rw [hsched, dropTurn_env, hs, List.tail_cons]

/-- Settles O51, by induction on the schedule: the engine's turn, the end of the schedule, or a host turn that leaves the
word pending. -/
theorem pendingCommandReachesCompletion : Obligations.PendingCommandReachesCompletion := by
  intro s w hp hmapped hreset
  generalize hs : s.env.schedule = schedule at hreset ⊢
  induction schedule generalizing s with
  | nil => exact ⟨0, s, Nat.le_refl 0, rfl, hp, nextTurn_of_pend hs hp⟩
  | cons turn rest ih =>
    cases turn with
    | engine => exact ⟨0, s, Nat.zero_le _, rfl, hp, nextTurn_of_schedule hs⟩
    | reset => exact absurd List.mem_cons_self hreset
    | host =>
      obtain ⟨u, hstep, hpu, hmu, hsu⟩ := step_host_of_mapped hs hp hmapped
      obtain ⟨k, t, hk, hrun, ht⟩ := ih u hpu hmu hsu fun h => hreset (List.mem_cons_of_mem _ h)
      exact ⟨k + 1, t, Nat.succ_le_succ hk, (run_succ hstep k).trans hrun, ht⟩

/-! ### The race of a CMD write with a pending BUILD (R204) -/

/-- The engine's turn with BUILD pending and 32 key bytes (R124). -/
theorem step_build {s : State} {w : Word} (hn : nextTurn s = .engine) (hp : s.pend = some w)
    (hd : decode w = .command .build) (hk : s.keycnt = 32) :
    step s = .next (succeed (installContext Config.E (dropTurn s))) := by
  rw [step_of_engine hn, engineTurn_of_command (s := dropTurn s) hp hd, exec_build]
  simp only [buildWith, dropTurn_keycnt, hk]
  rfl

/-- The host's turn with a 32-bit CMD write next (R39, R204). -/
theorem step_writeCmd {s : State} {w : Word} (hn : nextTurn s = .host)
    (hop : s.env.prog[s.env.hpc]? = some (.write 32 (s.env.base + 0x00) w)) :
    step s = .next (hostAdvance .done (offer w (dropTurn s)).env.t (offer w (dropTurn s))) := by
  rw [step_of_host hn, hostTurn_of_write (s := dropTurn s) hop]
  exact hostWrite_reg (s := dropTurn s) (r := .cmd) rfl

theorem offer_of_idle {s : State} (hp : s.pend = none) (w : Word) : offer w s = accept w s := by
  simp [offer, busy, hp]

theorem offer_of_busy {s : State} {p : Word} (hp : s.pend = some p) (w : Word) : offer w s = { s with ovr := true } := by
  simp [offer, busy, hp]

/-- Settles O52: BUILD completes and the write is accepted, or the write overruns and BUILD completes. -/
theorem overrunRaceHasBothOutcomes : Obligations.OverrunRaceHasBothOutcomes := by
  intro s rest hp hk hop
  have hd : decode 0x00000003#32 = .command .build := by decide
  constructor <;> intro hs
  · have hbuild := step_build (nextTurn_of_schedule hs) hp hd hk
    have hwrite := step_writeCmd (s := succeed (installContext Config.E (dropTurn s)))
      (nextTurn_of_schedule (turn := .host) (rest := rest) (by simp [hs])) hop
    refine ⟨_, (run_succ hbuild 1).trans (run_succ hwrite 0), ?_⟩
    rw [offer_of_idle rfl]
    exact ⟨rfl, rfl, rfl⟩
  · have hwrite := step_writeCmd (nextTurn_of_schedule hs) hop
    rw [offer_of_busy (s := dropTurn s) hp] at hwrite
    have hbuild := step_build (s := hostAdvance .done s.env.t { dropTurn s with ovr := true })
      (nextTurn_of_schedule (turn := .engine) (rest := rest) (by simp [hs])) hp hd hk
    exact ⟨_, (run_succ hwrite 1).trans (run_succ hbuild 0), rfl, rfl, rfl, rfl⟩

end Sys2Proof.Machine

/-! PROOF. The fixed facts of the state: its reset values (R41), the fields of STATUS (R25), acceptance (R39), and the step
that runs a decoded command (R40). -/

namespace Sys2Proof.Machine

/-- Settles O1: the table of R41, row by row; the mask ROM by the bits of a mask (R12). -/
theorem resetLeavesEverythingZero : Obligations.ResetLeavesEverythingZero := by
  refine ⟨by decide, rfl, rfl, rfl, rfl, rfl, rfl, rfl, fun k => ?_, fun k => ?_, rfl, fun p => ?_, rfl, rfl, rfl, rfl, rfl,
    rfl, fun p b => ?_⟩
  · simp
  · simp
  · simp
  · rw [maskRom, mask_getLsbD]
    simp

/-- R25: which field each bit of the STATUS word belongs to. -/
theorem statusWord_getLsbD (s : State) (b : Nat) :
    (statusWord s).getLsbD b =
      if b = 0 then busy s else if b = 1 then s.ctxv else if b = 3 then s.ovr
      else if 4 ≤ b ∧ b < 8 then (errCode s.err).getLsbD (b - 4)
      else if 8 ≤ b ∧ b < 16 then s.keycnt.getLsbD (b - 8) else false := by
  simp only [statusWord, BitVec.getLsbD_or, BitVec.getLsbD_shiftLeft, BitVec.getLsbD_setWidth]
  by_cases h : b < 16
  · interval_cases b <;> simp
  · have herr := BitVec.getLsbD_of_ge (errCode s.err) (b - 4) (by omega)
    have hcnt := BitVec.getLsbD_of_ge s.keycnt (b - 8) (by omega)
    simp [herr, hcnt, h, show b ≠ 0 ∧ b ≠ 1 ∧ b ≠ 3 ∧ ¬b < 8 ∧ b - 1 ≠ 0 ∧ b - 3 ≠ 0 by omega]

theorem errCode_le (e : ErrCode) : errCode e ≤ 3#4 := by
  cases e <;> decide

/-- Settles O3, bit by bit. -/
theorem statusWordFields : Obligations.StatusWordFields := by
  intro s
  refine ⟨statusWord_getLsbD s 0, statusWord_getLsbD s 1, statusWord_getLsbD s 2, statusWord_getLsbD s 3, ?_, ?_, ?_,
    errCode_le s.err⟩ <;> refine BitVec.eq_of_getLsbD_eq fun i hi => ?_ <;>
    rw [BitVec.getLsbD_extractLsb', statusWord_getLsbD]
  · simp [hi, show 4 + i ≠ 1 ∧ 4 + i ≠ 3 ∧ 4 + i < 8 by omega]
  · simp [hi, show 8 + i ≠ 1 ∧ 8 + i ≠ 3 ∧ ¬8 + i < 8 ∧ 8 + i < 16 by omega]
  · simp [show 16 + i ≠ 1 ∧ 16 + i ≠ 3 ∧ ¬16 + i < 8 ∧ ¬16 + i < 16 by omega]

/-- Settles O7: acceptance when nothing is pending, overrun when a word is. -/
theorem acceptanceLatches : Obligations.AcceptanceLatches := by
  intro s w
  have hwrite : busWrite 32 0x00 w s = some (offer w s) := busWrite_eq_some.mpr ⟨rfl, .cmd, rfl, rfl⟩
  refine ⟨fun hp hd => ?_, fun hp hd => ?_, fun hp => ?_⟩
  · rw [hwrite, offer_of_idle hp, accept, if_pos (isAnon_iff.mpr hd), if_pos (isAnon_iff.mpr hd)]
  · have hanon : ¬isAnon w = true := fun h => hd (isAnon_iff.mp h)
    rw [hwrite, offer_of_idle hp, accept, if_neg hanon, if_neg hanon]
  · obtain ⟨p, hp⟩ := Option.ne_none_iff_exists'.mp hp
    exact ⟨_, hwrite, by rw [offer_of_busy hp]⟩

/-- Settles O15: the engine's turn comes next, and it is the exec of the decoded command. -/
theorem stepRunsDecodedCommand : Obligations.StepRunsDecodedCommand := by
  intro s w i hp hd _
  refine ⟨fun hs => ?_, fun rest hs => ?_⟩
  · rw [step_of_engine (nextTurn_of_pend hs hp), dropTurn_of_empty hs, engineTurn_of_command hp hd]
  · rw [step_of_engine (nextTurn_of_schedule hs), engineTurn_of_command (s := dropTurn s) hp hd, dropTurn_eq hs]

end Sys2Proof.Machine

/-! PROOF. The register window (R51 to R57, R206): which accesses it answers, what a read of each register gives, and what
a write of one word of DIN changes. -/

namespace Sys2Proof.Machine

/-! ### The map of the window (R52) -/

/-- The registers of the map, in the order of their offsets. -/
def mappedRegs : List Reg :=
  [.cmd, .status, .din 0, .din 1, .din 2, .din 3, .res 0, .res 1, .res 2, .res 3]

theorem mem_mappedRegs (r : Reg) : r ∈ mappedRegs := by
  cases r with
  | cmd | status => decide
  | din k | res k => revert k; decide

/-- The registers that take a write (R56). -/
def writableRegs : List Reg := [.cmd, .status, .din 0, .din 1, .din 2, .din 3]

theorem mem_writableRegs {r : Reg} : r ∈ writableRegs ↔ ∀ k, r ≠ .res k := by
  cases r with
  | cmd | status => decide
  | din k | res k => revert k; decide

/-! ### Accesses that get an error response (R55, R56, R206) -/

/-- Of the registers, RES alone refuses a write (R56). -/
theorem exists_writeReg_iff {r : Reg} {v : Word} {s : State} : (∃ t, writeReg r v s = some t) ↔ ∀ k, r ≠ .res k := by
  refine ⟨?_, fun h => writeReg_of_ne_res h v s⟩
  rintro ⟨t, h⟩ k rfl
  cases h

theorem busRead_eq_none {s : State} {bits off : Nat} :
    busRead s bits off = none ↔ ¬(bits = 32 ∧ off ∈ mappedRegs.map regOffset) := by
  rw [← Option.not_isSome_iff_eq_none, Option.isSome_iff_exists]
  simp only [busRead_eq_some, List.mem_map, mem_mappedRegs, true_and]
  refine not_congr ⟨?_, ?_⟩
  · rintro ⟨v, hbits, r, hoff, -⟩
    exact ⟨hbits, r, hoff.symm⟩
  · rintro ⟨hbits, r, hoff⟩
    exact ⟨readReg s r, hbits, r, hoff.symm, rfl⟩

theorem busWrite_eq_none {s : State} {bits off : Nat} {v : Word} :
    busWrite bits off v s = none ↔ ¬(bits = 32 ∧ off ∈ writableRegs.map regOffset) := by
  rw [← Option.not_isSome_iff_eq_none, Option.isSome_iff_exists]
  simp only [busWrite_eq_some, List.mem_map, mem_writableRegs, ← exists_writeReg_iff (v := v) (s := s)]
  refine not_congr ⟨?_, ?_⟩
  · rintro ⟨t, hbits, r, hoff, hwrite⟩
    exact ⟨hbits, r, ⟨t, hwrite⟩, hoff.symm⟩
  · rintro ⟨hbits, r, ⟨t, hwrite⟩, hoff⟩
    exact ⟨t, hbits, r, hoff.symm, hwrite⟩

/-- Settles O5: the two lists of offsets are those of the mapped and of the writable registers. -/
theorem errorResponsesExactly : Obligations.ErrorResponsesExactly := fun _ _ _ _ =>
  ⟨busRead_eq_none, busWrite_eq_none⟩

/-! ### Accesses that are answered (R53, R57) -/

theorem busRead_reg (s : State) (r : Reg) : busRead s 32 (regOffset r) = some (readReg s r) :=
  busRead_eq_some.mpr ⟨rfl, r, rfl, rfl⟩

/-- Settles O4: each offset is that of its register. -/
theorem mappedReads : Obligations.MappedReads := fun s =>
  ⟨busRead_reg s .cmd, busRead_reg s .status, fun k => ⟨busRead_reg s (.din k), busRead_reg s (.res k)⟩⟩

/-- R53, R57: word k of the register is the new one, and every other word is as before. -/
theorem wordOf_setWord (v : Block) (k j : Fin 4) (x : Word) :
    wordOf (setWord v k x) j = if j = k then x else wordOf v j := by
  refine BitVec.eq_of_getLsbD_eq fun i hi => ?_
  have hword : (32 * j.val + i) / 32 = j.val := by omega
  have hbit : (32 * j.val + i) % 32 = i := by omega
  rw [wordOf, BitVec.getLsbD_extractLsb', setWord_getLsbD v k x (by omega), hword, hbit]
  by_cases hjk : j = k
  · simp [hjk, hi]
  · simp [hjk, hi, Fin.val_inj, wordOf]

/-- Settles O6: the new DIN is the old one with word k replaced. -/
theorem dinWriteReplacesOneWord : Obligations.DinWriteReplacesOneWord := fun s k v =>
  ⟨setWord s.din k v, busWrite_eq_some.mpr ⟨rfl, .din k, rfl, rfl⟩, fun j =>
    (busRead_reg _ (.din j)).trans (congrArg some (wordOf_setWord s.din k j v))⟩

/-! ### Accesses outside the window (R51) -/

theorem windowOffset_of_outside {base addr : Nat} (h : addr < base ∨ base + 64 ≤ addr) :
    windowOffset base addr = none :=
  if_neg (by omega)

/-- Settles O14: a read and a write both look for the address in the window first. -/
theorem outsideWindowRefused : Obligations.OutsideWindowRefused := by
  intro s rest bits addr v hs hout hop
  have hwindow : windowOffset (dropTurn s).env.base addr = none := windowOffset_of_outside hout
  rw [step_of_host (nextTurn_of_schedule hs)]
  obtain hop | hop := hop
  · rw [hostTurn_of_read (s := dropTurn s) hop, hostRead, hwindow]
  · rw [hostTurn_of_write (s := dropTurn s) hop, hostWrite, hwindow]

end Sys2Proof.Machine

/-! PROOF. Two reads of RES words with a completion between them (R58, R242). -/

namespace Sys2Proof.Machine

/-- The host's turn with a 32-bit read of a register next (R57, R80). -/
theorem step_readReg {s : State} {r : Reg} (hn : nextTurn s = .host)
    (hop : s.env.prog[s.env.hpc]? = some (.read 32 (s.env.base + regOffset r))) :
    step s = .next (hostAdvance (.data (readReg s r)) (readReg s r) (dropTurn s)) := by
  have hreg : readReg (dropTurn s) r = readReg s r := by cases r <;> rfl
  rw [step_of_host hn, hostTurn_of_read (s := dropTurn s) hop, ← hreg]
  exact hostRead_reg (dropTurn s) r

/-- The engine's turn after turns of the host that changed its own state alone: the command does what it does before them. -/
theorem step_exec_setEnv {s u : State} {w : Word} {i : Instr} {e : Env} (hn : nextTurn { s with env := e } = .engine)
    (hp : s.pend = some w) (hd : decode w = .command i) (hu : exec i s = .next u) :
    step { s with env := e } = .next { u with env := { e with schedule := e.schedule.tail } } := by
  rw [step_of_engine hn, engineTurn_of_command (s := dropTurn { s with env := e }) hp hd]
  exact exec_setEnv hu _

/-- Settles O53: a read of RES0, the completion, and a read of RES1 of the state it leaves. -/
theorem tornResultRead : Obligations.TornResultRead := by
  intro s rest hp _ hs hop₀ hop₁
  obtain ⟨u, hu⟩ := exec_next .anon6 s
  have hfirst := step_readReg (r := .res 0) (nextTurn_of_schedule hs) hop₀
  have hsched : (dropTurn s).env.schedule = .engine :: .host :: rest := by simp [hs]
  have hcomplete := step_exec_setEnv
    (e := (hostAdvance (.data (wordOf s.res 0)) (wordOf s.res 0) (dropTurn s)).env)
    (nextTurn_of_schedule hsched) hp (by decide) hu
  have hrun := (run_succ hfirst 2).trans ((run_succ hcomplete 1).trans (run_succ
    (step_readReg (r := .res 1) (nextTurn_of_schedule (congrArg List.tail hsched)) hop₁) 0))
  exact ⟨_, u, hu, hrun, rfl, rfl⟩

end Sys2Proof.Machine

/-! PROOF. The operations of an assembled host program (R80, R81): every expansion accesses registers alone, and writes RES
only where its line does (R56). -/

namespace Sys2Proof.Machine

theorem regAt_regOffset (r : Reg) : regAt (regOffset r) = some r :=
  regAt_eq_some.mpr rfl

section
variable (base : Nat)

@[simp] theorem opMapped_rdOp (r : Reg) : opMapped base (rdOp base r) = true := by
  simp [opMapped, rdOp, windowOffset_reg, accessOk_regOffset, regAt_regOffset]

/-- R56: a write is answered exactly when its line does not write RES. -/
@[simp] theorem opMapped_wrOp (r : Reg) (v : Word) : opMapped base (wrOp base r v) = writesNoResult (.wr r v) := by
  simp only [opMapped, wrOp, windowOffset_reg, accessOk_regOffset, regAt_regOffset, Bool.true_and]
  cases r <;> rfl

@[simp] theorem opMapped_bnz (m : Word) (n : Nat) : opMapped base (.bnz m n) = true := rfl

/-- Every operation of the list is a branch, or an access that gets no error response. -/
def OpsMapped (ops : List HostOp) : Prop := ∀ op ∈ ops, opMapped base op = true

@[simp] theorem opsMapped_nil : OpsMapped base [] := List.forall_mem_nil _

@[simp] theorem opsMapped_cons {op : HostOp} {ops : List HostOp} :
    OpsMapped base (op :: ops) ↔ opMapped base op = true ∧ OpsMapped base ops :=
  List.forall_mem_cons

@[simp] theorem opsMapped_append {xs ys : List HostOp} :
    OpsMapped base (xs ++ ys) ↔ OpsMapped base xs ∧ OpsMapped base ys :=
  List.forall_mem_append

@[simp] theorem opsMapped_waitOps (pos : Nat) : OpsMapped base (waitOps base pos) := by
  simp [waitOps]

@[simp] theorem opsMapped_issueOps (pos : Nat) (i : Instr) : OpsMapped base (issueOps base pos i) := by
  simp [issueOps, writesNoResult]

@[simp] theorem opsMapped_issueAllOps (pos : Nat) (is : List Instr) : OpsMapped base (issueAllOps base pos is) := by
  induction is generalizing pos with
  | nil => exact opsMapped_nil base
  | cons i rest ih => exact (opsMapped_append base).mpr ⟨opsMapped_issueOps base pos i, ih (pos + 3)⟩

/-- R81: of the lines, only `wr` on RES makes an access that gets an error response. -/
theorem opsMapped_lineOps (p : List HostLine) (pos : Nat) {l : HostLine} (h : writesNoResult l = true) :
    OpsMapped base (lineOps base p pos l) := by
  cases l with
  | wr r v => simpa [lineOps] using h
  | _ => simp [lineOps, writesNoResult]

theorem opsMapped_assembleFrom (p : List HostLine) (pos : Nat) {ls : List HostLine}
    (h : ∀ l ∈ ls, writesNoResult l = true) : OpsMapped base (assembleFrom base p pos ls) := by
  induction ls generalizing pos with
  | nil => exact opsMapped_nil base
  | cons l rest ih =>
    obtain ⟨hl, hrest⟩ := List.forall_mem_cons.mp h
    exact (opsMapped_append base).mpr ⟨opsMapped_lineOps base p pos hl, ih (pos + lineSize l) hrest⟩

end

/-- Settles O55: line by line, from the first position. -/
theorem assembledProgramsAreMapped : Obligations.AssembledProgramsAreMapped := fun base p h =>
  opsMapped_assembleFrom base p 0 h

end Sys2Proof.Machine

/-! PROOF. The encoding of the commands (R71, R76, R77, R82): the fields of a word and the word of its fields determine each
other, and so do a command and its word. -/

namespace Sys2Proof.Machine

/-! ### The fields of a word (R71) -/

/-- OP in the low byte, ARG in the next, and 0 above. -/
theorem formatC_getLsbD (op arg : BitVec 8) (i : Nat) :
    (formatC op arg).getLsbD i = if i < 8 then op.getLsbD i else arg.getLsbD (i - 8) := by
  by_cases h8 : i < 8
  · simp [formatC, h8, show i < 32 by omega]
  · have hop : op.getLsbD i = false := BitVec.getLsbD_of_ge op i (by omega)
    have harg : ¬i < 32 → arg.getLsbD (i - 8) = false := fun h => BitVec.getLsbD_of_ge arg (i - 8) (by omega)
    by_cases h32 : i < 32
    · simp [formatC, h8, h32, hop]
    · simp [formatC, h8, h32, harg]

@[simp] theorem rsvField_formatC (op arg : BitVec 8) : rsvField (formatC op arg) = 0#16 := by
  refine BitVec.eq_of_getLsbD_eq fun i hi => ?_
  rw [rsvField, BitVec.getLsbD_extractLsb', formatC_getLsbD, if_neg (by omega),
    BitVec.getLsbD_of_ge arg _ (by omega)]
  simp

@[simp] theorem opField_formatC (op arg : BitVec 8) : opField (formatC op arg) = op := by
  refine BitVec.eq_of_getLsbD_eq fun i hi => ?_
  simp [opField, formatC_getLsbD, hi]

@[simp] theorem argField_formatC (op arg : BitVec 8) : argField (formatC op arg) = arg := by
  refine BitVec.eq_of_getLsbD_eq fun i hi => ?_
  simp [argField, formatC_getLsbD, hi]

/-- A word with RSV = 0 is the word of its own OP and ARG. -/
theorem formatC_fields {w : Word} (h : rsvField w = 0#16) : formatC (opField w) (argField w) = w := by
  refine BitVec.eq_of_getLsbD_eq fun i hi => ?_
  rw [formatC_getLsbD]
  by_cases h8 : i < 8
  · simp [opField, h8]
  have hsub : 8 + (i - 8) = i := by omega
  by_cases h16 : i < 16
  · simp [argField, h8, hsub, show i - 8 < 8 by omega]
  · have hbit : (rsvField w).getLsbD (i - 16) = w.getLsbD i := by
      rw [rsvField, BitVec.getLsbD_extractLsb', show 16 + (i - 16) = i by omega]
      simp [show i - 16 < 16 by omega]
    rw [← hbit, h, if_neg h8, BitVec.getLsbD_of_ge _ _ (by omega), BitVec.getLsbD_zero]

/-! ### Commands and their words (R76, R82) -/

/-- The OP column of the table of encodings (R72). -/
def opcodeOf : Instr → BitVec 8
  | .nop => 0x00#8
  | .keyclr => 0x01#8
  | .keyb _ => 0x02#8
  | .build => 0x03#8
  | .anon4 => 0x04#8
  | .anon6 => 0x04#8

/-- The ARG column: the operand of KEYB and the family of ANON, else 0 (R73 to R75). -/
def argumentOf : Instr → BitVec 8
  | .keyb b => b
  | .anon6 => 0x01#8
  | _ => 0x00#8

theorem encode_eq_formatC (i : Instr) : encode i = formatC (opcodeOf i) (argumentOf i) := by
  cases i <;> rfl

theorem withoutOperand_eq_command {arg : BitVec 8} {i j : Instr} :
    withoutOperand arg i = .command j ↔ arg = 0x00#8 ∧ i = j := by
  unfold withoutOperand
  split <;> simp [*]

theorem anonOperand_eq_command {arg : BitVec 8} {j : Instr} :
    anonOperand arg = .command j ↔ arg = 0x00#8 ∧ .anon4 = j ∨ arg = 0x01#8 ∧ .anon6 = j := by
  unfold anonOperand
  split
  · simp [*]
  · split <;> simp [*]

/-- R76: a word decodes to the command whose fields it has, with RSV = 0. -/
theorem decode_eq_command {w : Word} {i : Instr} :
    decode w = .command i ↔ rsvField w = 0#16 ∧ opField w = opcodeOf i ∧ argField w = argumentOf i := by
  constructor
  · intro h
    unfold decode at h
    split at h
    · cases h
    next hrsv =>
    refine ⟨not_not.mp hrsv, ?_⟩
    split at h
    · obtain ⟨harg, rfl⟩ := withoutOperand_eq_command.mp h
      exact ⟨‹_›, harg⟩
    split at h
    · obtain ⟨harg, rfl⟩ := withoutOperand_eq_command.mp h
      exact ⟨‹_›, harg⟩
    split at h
    · cases h
      exact ⟨‹_›, rfl⟩
    split at h
    · obtain ⟨harg, rfl⟩ := withoutOperand_eq_command.mp h
      exact ⟨‹_›, harg⟩
    split at h
    · obtain ⟨harg, rfl⟩ | ⟨harg, rfl⟩ := anonOperand_eq_command.mp h
      · exact ⟨‹_›, harg⟩
      · exact ⟨‹_›, harg⟩
    · cases h
  · rintro ⟨hrsv, hop, harg⟩
    cases i <;> simp [decode, withoutOperand, anonOperand, hrsv, hop, harg, opcodeOf, argumentOf]

theorem decode_encode (i : Instr) : decode (encode i) = .command i := by
  rw [decode_eq_command, encode_eq_formatC]
  exact ⟨rsvField_formatC _ _, opField_formatC _ _, argField_formatC _ _⟩

theorem encode_of_decode {w : Word} {i : Instr} (h : decode w = .command i) : encode i = w := by
  obtain ⟨hrsv, hop, harg⟩ := decode_eq_command.mp h
  rw [encode_eq_formatC, ← hop, ← harg, formatC_fields hrsv]

/-- Settles O18: the word's three fields are the command's, in both directions. -/
theorem decodeEncodeAgree : Obligations.DecodeEncodeAgree :=
  ⟨fun i _ => decode_encode i, fun _ _ h => encode_of_decode h⟩

/-! ### The number of legal words (R76) -/

theorem encode_injective : Function.Injective encode := fun i j h => by
  have hdecode : Decoded.command i = .command j := by rw [← decode_encode i, h, decode_encode j]
  cases hdecode
  rfl

theorem legalWords_eq_range : {w : Word | ∃ i, decode w = .command i} = Set.range encode := by
  ext w
  exact ⟨fun ⟨i, h⟩ => ⟨i, encode_of_decode h⟩, fun ⟨i, h⟩ => ⟨i, h ▸ decode_encode i⟩⟩

/-- A command is KEYB with its byte, or one of the five commands without an operand (R72 to R75). -/
def instrEquiv : Instr ≃ Byte ⊕ Fin 5 where
  toFun
    | .nop => .inr 0
    | .keyclr => .inr 1
    | .keyb b => .inl b
    | .build => .inr 2
    | .anon4 => .inr 3
    | .anon6 => .inr 4
  invFun
    | .inl b => .keyb b
    | .inr 0 => .nop
    | .inr 1 => .keyclr
    | .inr 2 => .build
    | .inr 3 => .anon4
    | .inr 4 => .anon6
  left_inv i := by cases i <;> rfl
  right_inv
    | .inl _ => rfl
    | .inr k => by fin_cases k <;> rfl

theorem card_instr : Nat.card Instr = 261 := by
  have hbyte : Nat.card Byte = 256 := by
    rw [Nat.card_congr BitVec.equivFin.toEquiv, Nat.card_fin]
    rfl
  rw [Nat.card_congr instrEquiv, Nat.card_sum, hbyte, Nat.card_fin]

/-- Settles O19: the legal words are the encodings, each of one command. -/
theorem legalWordCount : Obligations.LegalWordCount := by
  change Nat.card {w : Word | ∃ i, decode w = .command i} = 261
  rw [legalWords_eq_range, Nat.card_range_of_injective encode_injective, card_instr]

/-! ### Illegal words (R77) -/

theorem withoutOperand_eq_illegal {arg : BitVec 8} {i : Instr} :
    (∃ why, withoutOperand arg i = .illegal why) ↔ arg ≠ 0x00#8 := by
  unfold withoutOperand
  split <;> simp [*]

theorem anonOperand_eq_illegal {arg : BitVec 8} :
    (∃ why, anonOperand arg = .illegal why) ↔ 0x01#8 < arg := by
  unfold anonOperand
  split
  · simp [*]
  split
  · simp [*]
  · have : 0x01#8 < arg := by bv_omega
    simp [this]

/-- The opcodes of the table are 0 to 4 (R72). -/
theorem opcode_cases (op : BitVec 8) :
    op = 0x00#8 ∨ op = 0x01#8 ∨ op = 0x02#8 ∨ op = 0x03#8 ∨ op = 0x04#8 ∨ 0x04#8 < op := by
  bv_omega

/-- R77: the illegal words, a case for RSV and one for each opcode with what its ARG may be. -/
theorem decode_eq_illegal {w : Word} :
    (∃ why, decode w = .illegal why) ↔ rsvField w ≠ 0#16 ∨ 0x04#8 < opField w ∨
      ((opField w = 0x00#8 ∨ opField w = 0x01#8 ∨ opField w = 0x03#8) ∧ argField w ≠ 0x00#8) ∨
      (opField w = 0x04#8 ∧ 0x01#8 < argField w) := by
  by_cases hrsv : rsvField w = 0#16
  case neg => simp [decode, hrsv]
  obtain hop | hop | hop | hop | hop | hop := opcode_cases (opField w)
  · simp [decode, hrsv, hop, withoutOperand_eq_illegal]
  · simp [decode, hrsv, hop, withoutOperand_eq_illegal]
  · simp [decode, hrsv, hop]
  · simp [decode, hrsv, hop, withoutOperand_eq_illegal]
  · simp [decode, hrsv, hop, anonOperand_eq_illegal]
  · have hne : opField w ≠ 0x00#8 ∧ opField w ≠ 0x01#8 ∧ opField w ≠ 0x02#8 ∧ opField w ≠ 0x03#8 ∧
        opField w ≠ 0x04#8 := by bv_omega
    simp [decode, hrsv, hop, hne]

/-- Settles O20: the fields are the bits the statement names. -/
theorem illegalWordsByField : Obligations.IllegalWordsByField := fun _ => decode_eq_illegal

/-- Settles O17: the legal words are encodings of their commands; each illegal word meets its own check of the decoder. -/
theorem specWordsDecode : Obligations.SpecWordsDecode :=
  ⟨decode_encode .nop, decode_encode .keyclr, decode_encode (.keyb 0x1F#8), decode_encode (.keyb 0xFF#8),
    decode_encode .build, decode_encode .anon4, decode_encode .anon6, by decide, by decide, by decide, by decide⟩

end Sys2Proof.Machine

/-! PROOF. Where each line of a host program stands in the assembled operations (R80, R81). -/

namespace Sys2Proof.Machine

/-- An `issue` is three operations (R81). -/
theorem length_issueAllOps (base pos : Nat) (is : List Instr) : (issueAllOps base pos is).length = 3 * is.length := by
  induction is generalizing pos with
  | nil => rfl
  | cons i rest ih =>
    simp only [issueAllOps, List.length_append, ih, List.length_cons, issueOps, waitOps, List.length_nil]
    omega

/-- R81: a line expands to as many operations as its size says. -/
theorem length_lineOps (base : Nat) (p : List HostLine) (pos : Nat) (l : HostLine) :
    (lineOps base p pos l).length = lineSize l := by
  cases l with
  | ldkey key => simp [lineOps, lineSize, length_issueAllOps]
  | _ => rfl

theorem length_assembleFrom (base : Nat) (p : List HostLine) (pos : Nat) (ls : List HostLine) :
    (assembleFrom base p pos ls).length = (ls.map lineSize).sum := by
  induction ls generalizing pos with
  | nil => rfl
  | cons l rest ih => simp [assembleFrom, length_lineOps, ih]

/-- Lines after others stand where the sizes of those before them add up to. -/
theorem assembleFrom_append (base : Nat) (p : List HostLine) (pos : Nat) (xs ys : List HostLine) :
    assembleFrom base p pos (xs ++ ys) =
      assembleFrom base p pos xs ++ assembleFrom base p (pos + (xs.map lineSize).sum) ys := by
  induction xs generalizing pos with
  | nil => rfl
  | cons x rest ih => simp [assembleFrom, ih, Nat.add_assoc]

/-- The assembled program is the lines before line `n`, that line's expansion at its label, and the lines after it. -/
theorem assemble_eq_append (base : Nat) {p : List HostLine} {n : Nat} {l : HostLine} (h : p[n]? = some l) :
    assemble base p = assembleFrom base p 0 (p.take n) ++ (lineOps base p (lineStart p n) l ++
      assembleFrom base p (lineStart p n + lineSize l) (p.drop (n + 1))) := by
  obtain ⟨hn, rfl⟩ := List.getElem?_eq_some_iff.mp h
  have hsplit : p = p.take n ++ p[n] :: p.drop (n + 1) := by
    rw [List.cons_getElem_drop_succ, List.take_append_drop]
  calc assemble base p
      = assembleFrom base p 0 (p.take n ++ p[n] :: p.drop (n + 1)) := congrArg (assembleFrom base p 0) hsplit
    _ = _ := by rw [assembleFrom_append, Nat.zero_add]; rfl

/-- Settles O54: what stands before the line has the length its label says, and its expansion the line's size. -/
theorem assembledLinesStandAtTheirLabels : Obligations.AssembledLinesStandAtTheirLabels := by
  intro base p n l h
  have hbefore : (assembleFrom base p 0 (p.take n)).length = lineStart p n := length_assembleFrom base p 0 (p.take n)
  rw [assemble_eq_append base h, List.drop_left' hbefore,
    List.take_left' (length_lineOps base p (lineStart p n) l)]

end Sys2Proof.Machine

/-! PROOF. The host's turn, one operation of its program at a time (R57, R60, R80): a read, an answered write, a branch. -/

namespace Sys2Proof.Machine

/-- Settles O10: the read is answered with the register's value. -/
theorem hostReadStep : Obligations.HostReadStep := by
  intro s rest r hs hop
  rw [step_readReg (nextTurn_of_schedule hs) hop, dropTurn_eq hs]
  rfl

/-- A 32-bit write that the window answers does to the engine what the window does with it (R57). -/
theorem hostWrite_of_busWrite {s u : State} {off : Nat} {v : Word} (h : busWrite 32 off v s = some u) :
    hostWrite 32 (s.env.base + off) v s = .next (hostAdvance .done u.env.t u) := by
  obtain ⟨-, r, rfl, hr⟩ := busWrite_eq_some.mp h
  exact hostWrite_reg hr

/-- Settles O11: the window reads nothing of the host's own state, so taking the turn off the schedule does not change what
the write does. -/
theorem hostWriteStep : Obligations.HostWriteStep := by
  intro s u rest off v hs hop hw
  have hwrite := hostWrite_of_busWrite (busWrite_setEnv hw { s.env with schedule := rest })
  rw [step_of_host (nextTurn_of_schedule hs), hostTurn_of_write (s := dropTurn s) hop, dropTurn_eq hs]
  exact hwrite

/-- Settles O12: the two branches of `bnz`. -/
theorem hostBranchStep : Obligations.HostBranchStep := by
  intro s rest m n hs hop
  have hstep : step s = .next (hostBranch m n (dropTurn s)) := by
    rw [step_of_host (nextTurn_of_schedule hs), hostTurn_of_branch (s := dropTurn s) hop]
  rw [hstep, dropTurn_eq hs]
  refine ⟨fun ht => ?_, fun ht => ?_⟩
  · simp only [hostBranch, if_pos ht]
  · simp only [hostBranch, if_neg (not_not.mpr ht)]

end Sys2Proof.Machine

/-! PROOF. The candidate call of the primitive (R105): how the candidate is packed, and which bit of the output is kept. -/

namespace Sys2Proof.Machine

/-- R105, R150: the bit that `calc` keeps is bit 7 of byte 0 of the primitive's output. -/
theorem calcBit_getLsbD_zero (E : Bytes16 → Bytes16 → Bytes16) (ck : Bytes16) (c : Block) :
    (calcBit E ck c).getLsbD 0 = ((E ck (unbe128 c))[0]).getLsbD 7 := by
  rw [calcBit, BitVec.getLsbD_extractLsb']
  simp only [Nat.zero_lt_one, decide_true, Bool.true_and, Nat.add_zero]

/-- R11: the most significant bit of a big-endian reading is the most significant bit of byte 0. -/
theorem be128_getLsbD_top (b : Bytes16) : (be128 b).getLsbD 127 = b[0].getLsbD 7 :=
  be128_getLsbD b (by decide)

/-- Settles O31: byte 0 is the packing's first byte, and the kept bit of byte 0 is the top bit of the big-endian reading. -/
theorem calcKeepsTopBit : Obligations.CalcKeepsTopBit := by
  intro E ck c
  have hkept := calcBit_getLsbD_zero E ck c
  have htop := be128_getLsbD_top (E ck (unbe128 c))
  exact ⟨unbe128_getElem c (by decide), hkept.trans htop.symm, hkept⟩

end Sys2Proof.Machine

/-! PROOF. The key commands and BUILD one by one (R120 to R135): what each completion leaves, the buffer after any number of
KEYB commands, and the table that BUILD installs. -/

namespace Sys2Proof.Machine

/-! ### NOP and KEYCLR (R120, R121) -/

/-- R25: with nothing pending bit 0 of the STATUS word is 0, and the other bits do not depend on PEND. -/
theorem statusWord_idle (s : State) :
    statusWord { s with pend := none } = statusWord s &&& 0xFFFFFFFE#32 := by
  rw [show 0xFFFFFFFE#32 = ~~~1#32 from rfl]
  refine BitVec.eq_of_getLsbD_eq fun b hb => ?_
  rw [BitVec.getLsbD_and, BitVec.getLsbD_not, BitVec.getLsbD_one, statusWord_getLsbD, statusWord_getLsbD]
  by_cases h0 : b = 0
  · simp [h0, busy]
  · simp [h0, hb]

/-- Settles O21: NOP retires, and of STATUS only BUSY reads PEND. -/
theorem nopCompletes : Obligations.NopCompletes := fun s =>
  ⟨exec_nop s, statusWord_idle s⟩

/-- Settles O22: the cleared buffer is 32 zero bytes. -/
theorem keyclrCompletes : Obligations.KeyclrCompletes := fun s =>
  ⟨Vector.replicate 32 0, exec_keyclr s, fun k => Vector.getElem_replicate k.isLt⟩

/-! ### KEYB (R122) -/

/-- Settles O23: the buffer and the count are those of the appended byte. -/
theorem keybCompletes : Obligations.KeybCompletes := fun s b =>
  ⟨(appendKeyByte b s).keybuf, keycntSucc s.keycnt, exec_keyb b s, keycntSucc_toNat s.keycnt,
    fun k => appendKeyByte_getElem b s k.isLt⟩

/-- R30, R31, R122: the bytes of a sequence of KEYB commands stand from position KEYCNT on, as far as there are positions;
what stands before and behind them stays. -/
theorem runCommands_keyb_getElem {s t : State} {bytes : List Byte} (h : runCommands (bytes.map .keyb) s = .next t)
    {k : Nat} (hk : k < 32) :
    t.keybuf[k] =
      if k < s.keycnt.toNat then s.keybuf[k] else (bytes[k - s.keycnt.toNat]?).getD s.keybuf[k] := by
  induction bytes generalizing s with
  | nil =>
    cases h
    simp
  | cons b rest ih =>
    rw [List.map_cons, runCommands_cons (exec_keyb b s)] at h
    rw [ih h, succeed_keycnt, appendKeyByte_keycnt, keycntSucc_toNat]
    simp only [succeed_keybuf, appendKeyByte_getElem b s hk]
    obtain hlt | heq | hgt := Nat.lt_trichotomy k s.keycnt.toNat
    · have hbelow : k < min (s.keycnt.toNat + 1) 255 := by omega
      rw [if_pos hbelow, if_pos hlt, if_neg hlt.ne]
    · have hbelow : k < min (s.keycnt.toNat + 1) 255 := by omega
      have hpos : k - s.keycnt.toNat = 0 := by omega
      rw [if_pos hbelow, if_pos heq, if_neg heq.not_lt, hpos, List.getElem?_cons_zero, Option.getD_some]
    · have habove : ¬k < min (s.keycnt.toNat + 1) 255 := by omega
      have hpos : k - s.keycnt.toNat = k - min (s.keycnt.toNat + 1) 255 + 1 := by omega
      rw [if_neg habove, if_neg hgt.not_gt, if_neg hgt.ne', hpos, List.getElem?_cons_succ]

/-- Settles O24: from the cleared buffer the bytes stand from position 0 on, with zeros behind them. -/
theorem keySequenceFillsBuffer : Obligations.KeySequenceFillsBuffer := by
  intro s bytes
  obtain ⟨t, hrun, hcnt, -⟩ := runCommands_keyclr_keyb s bytes
  have hkeyb : runCommands (bytes.map .keyb) (succeed (clearKey s)) = .next t :=
    (runCommands_cons (exec_keyclr s) _).symm.trans hrun
  refine ⟨t, hrun, hcnt, fun k => ?_⟩
  rw [Fin.getElem_fin, runCommands_keyb_getElem hkeyb k.isLt]
  simp

/-! ### BUILD (R124 to R128) -/

theorem exec_build_of_keycnt_eq {s : State} (hk : s.keycnt = 32) :
    exec .build s = .next (succeed (installContext Config.E s)) := by
  obtain ⟨-, e⟩ | ⟨hne, -⟩ := buildWith_cases Config.E s
  · rw [exec_build, e]
  · exact absurd hk hne

theorem exec_build_of_keycnt_ne {s : State} (hk : s.keycnt ≠ 32) : exec .build s = .next (raise .keyLength s) := by
  obtain ⟨heq, -⟩ | ⟨-, e⟩ := buildWith_cases Config.E s
  · exact absurd heq hk
  · rw [exec_build, e]

theorem cipherKey_getElem (key : Bytes32) {j : Nat} (hj : j < 16) : (cipherKey key)[j] = key[j] :=
  Vector.getElem_ofFn hj

theorem padSeed_getElem (key : Bytes32) {j : Nat} (hj : j < 16) : (padSeed key)[j] = key[16 + j] :=
  Vector.getElem_ofFn hj

theorem maskedPads_getElem (pad : Block) {p : Nat} (hp : p < 128) : (maskedPads pad)[p] = pad &&& ~~~ mask p :=
  Vector.getElem_ofFn hp

/-- Settles O25: the context is the two halves of the key, the pad of the one under the other, and its masked pads. -/
theorem buildInstallsContext : Obligations.BuildInstallsContext := fun s hk =>
  ⟨cipherKey s.keybuf, padSeed s.keybuf, maskedPads (padOf Config.E s.keybuf), exec_build_of_keycnt_eq hk,
    fun j => ⟨cipherKey_getElem s.keybuf j.isLt, padSeed_getElem s.keybuf j.isLt⟩,
    fun p => maskedPads_getElem _ p.isLt⟩

/-- Settles O26: BUILD raises KeyLengthError, and the error field of STATUS holds its code. -/
theorem buildKeyLengthError : Obligations.BuildKeyLengthError := by
  intro s hk
  obtain ⟨-, -, -, -, herr, -⟩ := statusWordFields (raise .keyLength s)
  exact ⟨exec_build_of_keycnt_ne hk, herr⟩

/-- R136: the context depends on KEYBUF alone, which BUILD leaves, so that a second commit changes nothing. -/
theorem succeed_installContext_idem (E : Bytes16 → Bytes16 → Bytes16) (s : State) :
    succeed (installContext E (succeed (installContext E s))) = succeed (installContext E s) := rfl

/-- Settles O28: neither outcome touches the key, DIN or RES, and the second BUILD commits what the first did. -/
theorem buildKeepsKeyAndRepeats : Obligations.BuildKeepsKeyAndRepeats := by
  refine ⟨fun s t h => ?_, fun s hk => ⟨_, exec_build_of_keycnt_eq hk, ?_⟩⟩
  · rw [exec_build] at h
    cases h
    obtain ⟨-, e⟩ | ⟨-, e⟩ := buildWith_cases Config.E s <;> rw [e] <;> exact ⟨rfl, rfl, rfl, rfl⟩
  · have hkept : (succeed (installContext Config.E s)).keycnt = 32 := hk
    rw [exec_build_of_keycnt_eq hkept, succeed_installContext_idem]

/-! ### The table (R133, R135) -/

/-- R135: no top bit is cleared in entry 0. -/
theorem maskedPads_zero (pad : Block) : (maskedPads pad)[0] = pad := by
  refine BitVec.eq_of_getLsbD_eq fun b hb => (maskedPads_getLsbD pad 0 b).trans ?_
  simp [hb]

/-- R135: the bits an entry keeps and the bits of its mask are apart. -/
theorem maskedPads_and_maskRom (pad : Block) (p : Fin 128) : (maskedPads pad)[p] &&& maskRom p = 0 := by
  rw [Fin.getElem_fin, maskedPads_getElem pad p.isLt, maskRom, BitVec.and_assoc, BitVec.and_comm (~~~ _),
    BitVec.and_not_self]
  exact BitVec.and_zero

/-- Settles O29, from the bits of the masked pads. -/
theorem maskedPadShape : Obligations.MaskedPadShape := by
  intro s t hk h
  rw [exec_build_of_keycnt_eq hk] at h
  cases h
  refine ⟨maskedPads_zero _, fun p => ⟨maskedPads_and_maskRom _ p, fun b _ => ?_⟩⟩
  rw [succeed_mp, installContext_mp, maskedPads_getLsbD, succeed_pad, installContext_pad]
  by_cases hb : b < 128 - p.val
  · simp [hb, show b + p.val < 128 by omega]
  · simp [hb, show ¬b + p.val < 128 by omega]

end Sys2Proof.Machine

/-! PROOF. The data path of an ANON command bit by bit (R170 to R177, R181 to R184): the values of the address-width
multiplexer, the candidates under a context that meets R37, and each bit of the result. -/

namespace Sys2Proof.Machine

/-! ### The values of the multiplexer (R170 to R172) -/

theorem addressBits_le (f : Family) : addressBits f ≤ 128 := by
  cases f <;> decide

/-- R172: the original value is the low n bits of LATV. -/
theorem originalValue_getLsbD (f : Family) (latv : Block) (b : Nat) :
    (originalValue f latv).getLsbD b = (decide (b < addressBits f) && latv.getLsbD b) := by
  cases f with
  | v4 =>
    simp only [originalValue, addressBits, BitVec.getLsbD_setWidth]
    by_cases hb : b < 32
    · simp [hb, show b < 128 by omega]
    · simp [hb]
  | v6 =>
    by_cases hb : b < 128
    · simp [originalValue, addressBits, hb]
    · simp [originalValue, BitVec.getLsbD_of_ge latv b (Nat.le_of_not_lt hb)]

/-- R171: the aligned value has the original value in its top n bits and zeros below. -/
theorem alignedValue_getLsbD (f : Family) (latv : Block) {b : Nat} (hb : b < 128) :
    (alignedValue f latv).getLsbD b =
      (decide (128 ≤ b + addressBits f) && latv.getLsbD (b + addressBits f - 128)) := by
  cases f with
  | v4 =>
    rw [alignedValue, BitVec.getLsbD_shiftLeft, originalValue_getLsbD]
    by_cases h : b < 96
    · simp [h, addressBits, show ¬128 ≤ b + 32 by omega]
    · simp [h, hb, addressBits, show 128 ≤ b + 32 by omega, show b - 96 < 32 by omega,
        show b + 32 - 128 = b - 96 by omega]
  | v6 => simp [alignedValue, originalValue, addressBits]

/-- R171: counted from the top, the bits of the aligned value are those of the latched address, then zeros. -/
theorem bitFromTop_alignedValue (f : Family) (latv : Block) {j : Nat} (hj : j < addressBits f) :
    bitFromTop 128 j (alignedValue f latv) = bitFromTop (addressBits f) j latv := by
  have hn := addressBits_le f
  have hpos : 128 - 1 - j + addressBits f - 128 = addressBits f - 1 - j := by omega
  rw [bitFromTop, alignedValue_getLsbD f latv (by omega), hpos, decide_eq_true (by omega), Bool.true_and, bitFromTop]

/-! ### The candidates under a context (R37, R181, R182) -/

/-- R181: under R37 a candidate has the pad's bits below its top i bits, and the other value's bits in them. -/
theorem candidate_getLsbD_of_contextInv {s : State} (hc : s.ctxv = true) (hinv : ContextInv s) (aligned : Block)
    (i : Fin 128) {b : Nat} (hb : b < 128) :
    (candidate s.mp aligned i).getLsbD b = if b < 128 - i.val then s.pad.getLsbD b else aligned.getLsbD b := by
  rw [candidate_getLsbD, hinv hc i, maskRom, BitVec.getLsbD_and, BitVec.getLsbD_not, mask_getLsbD]
  by_cases h : b < 128 - i.val
  · simp [h, hb, show ¬128 ≤ b + i.val by omega]
  · simp [h, hb, show 128 ≤ b + i.val by omega]

/-- R181: candidate 0 has no address bit. -/
theorem candidate_zero_of_contextInv {s : State} (hc : s.ctxv = true) (hinv : ContextInv s) (aligned : Block) :
    candidate s.mp aligned 0 = s.pad :=
  BitVec.eq_of_getLsbD_eq fun b hb => by
    rw [candidate_getLsbD_of_contextInv hc hinv aligned 0 hb]
    exact if_pos hb

/-- Settles O35, from the bits of the candidates. -/
theorem candidateShape : Obligations.CandidateShape := fun s f hc hinv =>
  ⟨candidate_zero_of_contextInv hc hinv (alignedValue f s.latv),
    fun i _ hb => candidate_getLsbD_of_contextInv hc hinv (alignedValue f s.latv) i hb⟩

/-- Settles O36: the 32 address bits stand at bit 96 and above, and so do the top 31 bits, the most that an IPv4 candidate
takes from the address. -/
theorem ipv4CandidateLowBits : Obligations.Ipv4CandidateLowBits := by
  intro s hc hinv
  refine ⟨BitVec.eq_of_getLsbD_eq fun b hb => ?_, fun i hi => BitVec.eq_of_getLsbD_eq fun b hb => ?_⟩
  · rw [BitVec.getLsbD_extractLsb', alignedValue_getLsbD _ _ (by omega)]
    simp [addressBits, show ¬128 ≤ b + 32 by omega]
  · rw [BitVec.getLsbD_extractLsb', BitVec.getLsbD_extractLsb',
      candidate_getLsbD_of_contextInv hc hinv _ i (by omega), if_pos (by omega)]

/-! ### The result (R176, R177, R184) -/

/-- The bit that `calc` gives in iteration j of the family's loop (R150, R175). -/
def streamBit (E : Bytes16 → Bytes16 → Bytes16) (f : Family) (s : State) (j : Fin 128) : Bool :=
  (calcBit E s.ck (candidate s.mp (alignedValue f s.latv) j)).getLsbD 0

section
variable (E : Bytes16 → Bytes16 → Bytes16) (f : Family) (s : State)

/-- R176: the accumulator holds the stream, its first bit the highest of the low n, and zeros above. -/
theorem accumulated_getLsbD (b : Nat) :
    (accumulated E f s).getLsbD b =
      if hb : b < addressBits f then
        streamBit E f s ⟨addressBits f - 1 - b, by have := addressBits_le f; omega⟩
      else false :=
  loop_acc_getLsbD E s.ck s.mp (alignedValue f s.latv) s.scratch (addressBits_le f) b

theorem xorResult_getLsbD (acc orig : Block) (b : Nat) :
    (xorResult f acc orig).getLsbD b = (decide (b < addressBits f) && (acc.getLsbD b ^^ orig.getLsbD b)) := by
  cases f with
  | v4 =>
    simp only [xorResult, addressBits, BitVec.getLsbD_setWidth, BitVec.getLsbD_xor]
    by_cases hb : b < 32
    · simp [hb, show b < 128 by omega]
    · simp [hb]
  | v6 =>
    by_cases hb : b < 128
    · simp [xorResult, addressBits, hb]
    · simp [xorResult, addressBits, hb, BitVec.getLsbD_of_ge _ b (Nat.le_of_not_lt hb)]

/-- R177: the result is an n-bit value. -/
theorem anonResult_getLsbD_of_ge {b : Nat} (hb : addressBits f ≤ b) : (anonResult E f s).getLsbD b = false := by
  rw [anonResult, xorResult_getLsbD, decide_eq_false (Nat.not_lt.mpr hb), Bool.false_and]

/-- R177: at the native width the result is the accumulator XOR the latched address. -/
theorem anonResult_getLsbD_of_lt {b : Nat} (hb : b < addressBits f) :
    (anonResult E f s).getLsbD b = ((accumulated E f s).getLsbD b ^^ s.latv.getLsbD b) := by
  rw [anonResult, xorResult_getLsbD, originalValue_getLsbD, decide_eq_true hb, Bool.true_and, Bool.true_and]

/-- R184: each bit of the result, counted from the top, is the address bit XOR the stream's bit. -/
theorem bitFromTop_anonResult {j : Nat} (hj : j < addressBits f) :
    bitFromTop (addressBits f) j (anonResult E f s) =
      (bitFromTop (addressBits f) j s.latv ^^ streamBit E f s ⟨j, hj.trans_le (addressBits_le f)⟩) := by
  have hb : addressBits f - 1 - j < addressBits f := by omega
  have hpos : addressBits f - 1 - (addressBits f - 1 - j) = j := by omega
  rw [bitFromTop, anonResult_getLsbD_of_lt E f s hb, accumulated_getLsbD, dif_pos hb, Bool.xor_comm, bitFromTop]
  simp only [hpos]

/-- R177: reading the result at the family's width loses nothing. -/
theorem setWidth_setWidth_anonResult :
    BitVec.setWidth 128 (BitVec.setWidth (addressBits f) (anonResult E f s)) = anonResult E f s := by
  refine BitVec.eq_of_getLsbD_eq fun b hb => ?_
  rw [BitVec.getLsbD_setWidth, BitVec.getLsbD_setWidth, decide_eq_true hb, Bool.true_and]
  by_cases h : b < addressBits f
  · rw [decide_eq_true h, Bool.true_and]
  · rw [decide_eq_false h, Bool.false_and, anonResult_getLsbD_of_ge E f s (Nat.le_of_not_lt h)]

end

/-- Settles O37: bit b of the aligned values shifted back is bit b of the accumulator XOR bit b of LATV. -/
theorem xorWidth : Obligations.XorWidth := by
  intro E s
  refine ⟨BitVec.eq_of_getLsbD_eq fun b hb => ?_, BitVec.eq_of_getLsbD_eq fun b hb => ?_, rfl⟩
  · rw [BitVec.getLsbD_extractLsb', accumulated_getLsbD, dif_neg (by simp [addressBits])]
    simp
  · rw [BitVec.getLsbD_setWidth, BitVec.getLsbD_extractLsb', BitVec.getLsbD_ushiftRight, BitVec.getLsbD_xor,
      BitVec.getLsbD_shiftLeft, Nat.zero_add]
    by_cases h : b < 32
    · rw [anonResult_getLsbD_of_lt E .v4 s h, alignedValue_getLsbD .v4 s.latv (by omega)]
      simp [hb, h, addressBits, show 96 + b < 128 by omega, show 128 ≤ 96 + b + 32 by omega,
        show 96 + b + 32 - 128 = b by omega]
    · rw [anonResult_getLsbD_of_ge E .v4 s (Nat.le_of_not_lt h)]
      simp [h]

end Sys2Proof.Machine

/-! PROOF. The completions of ANON4 and ANON6, both families at once (R178 to R180). -/

namespace Sys2Proof.Machine

theorem exec_anonCommand (f : Family) (s : State) :
    exec (anonCommand f) s = .next (anonWith Config.E f s) := by
  cases f
  · exact exec_anon4 s
  · exact exec_anon6 s

theorem exec_anonCommand_of_context {s : State} (hc : s.ctxv = true) (f : Family) :
    exec (anonCommand f) s = .next (succeed (finishAnon Config.E f s)) := by
  obtain ⟨-, e⟩ | ⟨hno, -⟩ := anonWith_cases Config.E f s
  · rw [exec_anonCommand, e]
  · exact absurd (hc.symm.trans hno) (by decide)

theorem exec_anonCommand_of_noContext {s : State} (hc : s.ctxv = false) (f : Family) :
    exec (anonCommand f) s = .next (raise .noContext s) := by
  obtain ⟨hyes, -⟩ | ⟨-, e⟩ := anonWith_cases Config.E f s
  · exact absurd (hc.symm.trans hyes) (by decide)
  · rw [exec_anonCommand, e]

/-- Settles O34: both commands raise NoContext, and the error field of STATUS holds its code. -/
theorem anonWithoutContext : Obligations.AnonWithoutContext := by
  intro s hc
  obtain ⟨-, -, -, -, herr, -⟩ := statusWordFields (raise .noContext s)
  exact ⟨exec_anonCommand_of_noContext hc .v4, exec_anonCommand_of_noContext hc .v6, herr⟩

/-- Settles O32, from the bits of the IPv4 result. -/
theorem anon4Completes : Obligations.Anon4Completes := by
  intro s hc
  refine ⟨anonResult Config.E .v4 s, (finishAnon Config.E .v4 s).scratch, s.draws + 1,
    exec_anonCommand_of_context hc .v4, BitVec.eq_of_getLsbD_eq fun b hb => ?_, fun j => ?_⟩
  · rw [BitVec.getLsbD_extractLsb', anonResult_getLsbD_of_ge Config.E .v4 s (Nat.le_add_right 32 b)]
    simp
  · rw [← BitVec.setWidth_eq_extractLsb' (by decide)]
    exact bitFromTop_anonResult Config.E .v4 s j.isLt

/-- Settles O33, from the bits of the IPv6 result. -/
theorem anon6Completes : Obligations.Anon6Completes := fun s hc =>
  ⟨anonResult Config.E .v6 s, (finishAnon Config.E .v6 s).scratch, s.draws + 1, exec_anonCommand_of_context hc .v6,
    fun j => bitFromTop_anonResult Config.E .v6 s j.isLt⟩

/-- R178, R179: what an ANON command with a context leaves in RES. -/
theorem res_of_exec_anonCommand {s t : State} {f : Family} (hc : s.ctxv = true)
    (h : exec (anonCommand f) s = .next t) : t.res = anonResult Config.E f s := by
  rw [exec_anonCommand_of_context hc] at h
  cases h
  rfl

end Sys2Proof.Machine

/-! PROOF. The map from addresses to results under one context (R185 to R188, R191). Iteration j reads the address bits above
bit j alone, so that the top k bits of two results agree exactly when the top k bits of the two addresses do. -/

namespace Sys2Proof.Machine

/-! ### Values whose top bits agree -/

/-- The top k bits of an m-bit value and of an n-bit value agree. -/
def AgreeTop (m n k : Nat) (a b : Block) : Prop := ∀ j < k, bitFromTop m j a = bitFromTop n j b

theorem agreeTop_succ {m n k : Nat} {a b : Block} :
    AgreeTop m n (k + 1) a b ↔ AgreeTop m n k a b ∧ bitFromTop m k a = bitFromTop n k b :=
  Nat.forall_lt_succ_right

/-- R9: the top k bits as a value of their own. -/
theorem agreeTop_iff_extractLsb' {m n k : Nat} (hm : k ≤ m) (hn : k ≤ n) {a b : Block} :
    AgreeTop m n k a b ↔ a.extractLsb' (m - k) k = b.extractLsb' (n - k) k := by
  constructor
  · intro h
    refine BitVec.eq_of_getLsbD_eq fun i hi => ?_
    have hbit := h (k - 1 - i) (by omega)
    rw [bitFromTop, bitFromTop, show m - 1 - (k - 1 - i) = m - k + i by omega,
      show n - 1 - (k - 1 - i) = n - k + i by omega] at hbit
    rw [BitVec.getLsbD_extractLsb', BitVec.getLsbD_extractLsb', hbit]
  · intro h j hj
    have hbit := congrArg (·.getLsbD (k - 1 - j)) h
    simp only [BitVec.getLsbD_extractLsb', show k - 1 - j < k by omega, decide_true, Bool.true_and] at hbit
    rwa [bitFromTop, bitFromTop, show m - 1 - j = m - k + (k - 1 - j) by omega,
      show n - 1 - j = n - k + (k - 1 - j) by omega]

theorem agreeTop_iff_setWidth {n : Nat} (hn : n ≤ 128) {a b : Block} :
    AgreeTop n n n a b ↔ BitVec.setWidth n a = BitVec.setWidth n b := by
  rw [agreeTop_iff_extractLsb' le_rfl le_rfl, Nat.sub_self, BitVec.setWidth_eq_extractLsb' hn,
    BitVec.setWidth_eq_extractLsb' hn]

/-- R185: two values have more than l leading bits in common exactly when their top l + 1 bits agree. -/
theorem lt_commonPrefix_iff {n l : Nat} {a b : Block} :
    l < commonPrefix n a b ↔ l < n ∧ AgreeTop n n (l + 1) a b := by
  rw [commonPrefix, List.takeWhile_eq_take_findIdx_not, List.length_take, min_eq_left List.findIdx_le_length,
    List.lt_findIdx_iff]
  simp [AgreeTop]

/-! ### The results of two addresses under one context (R185, R191) -/

/-- R175: a candidate reads no bit of the aligned value below its top i bits. -/
theorem candidate_congr (mp : Vector Block 128) {a b : Block} {i : Fin 128} (h : AgreeTop 128 128 i a b) :
    candidate mp a i = candidate mp b i := by
  refine BitVec.eq_of_getLsbD_eq fun p hp => ?_
  rw [candidate_getLsbD, candidate_getLsbD]
  by_cases htop : 128 ≤ p + i.val
  · have hbit := h (127 - p) (by omega)
    rw [bitFromTop, bitFromTop, show 128 - 1 - (127 - p) = p by omega] at hbit
    rw [hbit]
  · rw [decide_eq_false htop, Bool.and_false, Bool.and_false]

section
variable {E : Bytes16 → Bytes16 → Bytes16} {f g : Family} {s t : State}

/-- R184: bit j of the stream depends on the context and on the address bits above bit j. -/
theorem streamBit_congr (hck : t.ck = s.ck) (hmp : t.mp = s.mp) {j : Fin 128} (hf : j.val < addressBits f)
    (hg : j.val < addressBits g) (h : AgreeTop (addressBits f) (addressBits g) j s.latv t.latv) :
    streamBit E f s j = streamBit E g t j := by
  have haligned : AgreeTop 128 128 j (alignedValue f s.latv) (alignedValue g t.latv) := fun i hi => by
    rw [bitFromTop_alignedValue f s.latv (hi.trans hf), bitFromTop_alignedValue g t.latv (hi.trans hg), h i hi]
  rw [streamBit, streamBit, hck, hmp, candidate_congr s.mp haligned]

/-- R185, R191: the top k bits of two results agree exactly when those of the two addresses do. -/
theorem agreeTop_anonResult_iff (hck : t.ck = s.ck) (hmp : t.mp = s.mp) {k : Nat} (hf : k ≤ addressBits f)
    (hg : k ≤ addressBits g) :
    AgreeTop (addressBits f) (addressBits g) k (anonResult E f s) (anonResult E g t) ↔
      AgreeTop (addressBits f) (addressBits g) k s.latv t.latv := by
  induction k with
  | zero => simp [AgreeTop]
  | succ k ih =>
    rw [agreeTop_succ, agreeTop_succ, ih (Nat.le_of_succ_le hf) (Nat.le_of_succ_le hg)]
    refine and_congr_right fun hagree => ?_
    have hj : k < 128 := (Nat.lt_of_succ_le hf).trans_le (addressBits_le f)
    have hstream : streamBit E f s ⟨k, hj⟩ = streamBit E g t ⟨k, hj⟩ := streamBit_congr hck hmp hf hg hagree
    rw [bitFromTop_anonResult E f s hf, bitFromTop_anonResult E g t hg, hstream, Bool.xor_left_inj]

/-- R185, for both families. -/
theorem commonPrefix_anonResult (hck : t.ck = s.ck) (hmp : t.mp = s.mp) :
    commonPrefix (addressBits f) (anonResult E f s) (anonResult E f t) =
      commonPrefix (addressBits f) s.latv t.latv := by
  refine eq_of_forall_lt_iff fun l => ?_
  rw [lt_commonPrefix_iff, lt_commonPrefix_iff]
  exact and_congr_right fun hl => agreeTop_anonResult_iff hck hmp hl hl

/-- R187: under one context equal addresses have equal results. -/
theorem anonResult_congr (hck : t.ck = s.ck) (hmp : t.mp = s.mp)
    (h : BitVec.setWidth (addressBits f) t.latv = BitVec.setWidth (addressBits f) s.latv) :
    anonResult E f t = anonResult E f s := by
  have hagree := (agreeTop_anonResult_iff (E := E) hck.symm hmp.symm le_rfl le_rfl).mpr
    ((agreeTop_iff_setWidth (addressBits_le f)).mpr h)
  rw [← setWidth_setWidth_anonResult E f t, (agreeTop_iff_setWidth (addressBits_le f)).mp hagree,
    setWidth_setWidth_anonResult]

end

/-- Settles O38: the results agree up to a bit exactly when the addresses do. -/
theorem prefixPreservation : Obligations.PrefixPreservation := by
  intro s₁ s₂ t₁ t₂ hc₁ hcontext
  obtain ⟨hctxv, hck, -, hmp⟩ := hcontext
  have hc₂ : s₂.ctxv = true := hctxv.trans hc₁
  have hpreserved (f : Family) (h₁ : exec (anonCommand f) s₁ = .next t₁) (h₂ : exec (anonCommand f) s₂ = .next t₂) :
      commonPrefix (addressBits f) t₁.res t₂.res = commonPrefix (addressBits f) s₁.latv s₂.latv := by
    rw [res_of_exec_anonCommand hc₁ h₁, res_of_exec_anonCommand hc₂ h₂, commonPrefix_anonResult hck hmp]
  exact ⟨hpreserved .v4, hpreserved .v6⟩

/-- Settles O40: the agreement of the top 32 bits, between the two families. -/
theorem ipv4ResultIsPrefixOfIpv6Result : Obligations.Ipv4ResultIsPrefixOfIpv6Result := by
  intro s₁ s₂ t₁ t₂ hc₁ hcontext hlatv h₁ h₂
  obtain ⟨hctxv, hck, -, hmp⟩ := hcontext
  have haddresses : AgreeTop 32 128 32 s₁.latv s₂.latv :=
    (agreeTop_iff_extractLsb' (by decide) (by decide)).mpr hlatv.symm
  have hresults : AgreeTop 32 128 32 (anonResult Config.E .v4 s₁) (anonResult Config.E .v6 s₂) :=
    (agreeTop_anonResult_iff (f := .v4) (g := .v6) hck hmp (by decide) (by decide)).mpr haddresses
  rw [res_of_exec_anonCommand (f := .v4) hc₁ h₁, res_of_exec_anonCommand (f := .v6) (hctxv.trans hc₁) h₂]
  exact (agreeTop_iff_extractLsb' (by decide) (by decide)).mp hresults

/-! ### What the result depends on (R187, R188) -/

/-- R37: the table of an installed context is given by its pad. -/
theorem ContextInv.mp_eq {s t : State} (hs : ContextInv s) (ht : ContextInv t) (hcs : s.ctxv = true)
    (hct : t.ctxv = true) (hpad : t.pad = s.pad) : t.mp = s.mp :=
  Vector.ext fun p hp => by
    calc t.mp[p] = t.pad &&& ~~~ maskRom ⟨p, hp⟩ := ht hct ⟨p, hp⟩
      _ = s.pad &&& ~~~ maskRom ⟨p, hp⟩ := by rw [hpad]
      _ = s.mp[p] := (hs hcs ⟨p, hp⟩).symm

/-- Settles O41: the pads give the tables, and the family's bits of LATV the result. -/
theorem resultDependsOnContextAndAddress : Obligations.ResultDependsOnContextAndAddress := by
  intro s₁ s₂ t₁ t₂ hc₁ hc₂ hinv₁ hinv₂ hck hpad
  have hmp : s₂.mp = s₁.mp := hinv₁.mp_eq hinv₂ hc₁ hc₂ hpad
  have hsame (f : Family)
      (hlatv : BitVec.setWidth (addressBits f) s₂.latv = BitVec.setWidth (addressBits f) s₁.latv)
      (h₁ : exec (anonCommand f) s₁ = .next t₁) (h₂ : exec (anonCommand f) s₂ = .next t₂) : t₂.res = t₁.res := by
    rw [res_of_exec_anonCommand hc₁ h₁, res_of_exec_anonCommand hc₂ h₂, anonResult_congr hck hmp hlatv]
  refine ⟨fun hlatv => hsame .v4 ?_, fun hlatv => hsame .v6 (congrArg _ hlatv)⟩
  rw [BitVec.setWidth_eq_extractLsb' (addressBits_le .v4), BitVec.setWidth_eq_extractLsb' (addressBits_le .v4)]
  exact hlatv

/-! ### The bijection (R186) -/

/-- An n-bit value fits in a block. -/
theorem setWidth_setWidth_block (f : Family) (v : BitVec (addressBits f)) :
    BitVec.setWidth (addressBits f) (BitVec.setWidth 128 v) = v := by
  rw [BitVec.setWidth_setWidth_of_le v (addressBits_le f), BitVec.setWidth_eq]

/-- The state with an n-bit address in LATV. -/
def State.withAddress (s : State) (f : Family) (v : BitVec (addressBits f)) : State :=
  { s with latv := BitVec.setWidth 128 v }

/-- The map from n-bit addresses to n-bit results under the context of `s` (R186). -/
def anonMap (E : Bytes16 → Bytes16 → Bytes16) (f : Family) (s : State) (v : BitVec (addressBits f)) :
    BitVec (addressBits f) :=
  BitVec.setWidth (addressBits f) (anonResult E f (s.withAddress f v))

/-- R186: results that agree in all n bits come from addresses that do. -/
theorem anonMap_injective (E : Bytes16 → Bytes16 → Bytes16) (f : Family) (s : State) :
    Function.Injective (anonMap E f s) := by
  intro v w h
  have hle : addressBits f ≤ 128 := addressBits_le f
  have hresults : AgreeTop (addressBits f) (addressBits f) (addressBits f)
      (anonResult E f (s.withAddress f v)) (anonResult E f (s.withAddress f w)) := (agreeTop_iff_setWidth hle).mpr h
  have haddresses : AgreeTop (addressBits f) (addressBits f) (addressBits f)
      (s.withAddress f v).latv (s.withAddress f w).latv :=
    (agreeTop_anonResult_iff (s := s.withAddress f v) (t := s.withAddress f w) rfl rfl le_rfl le_rfl).mp hresults
  calc v = BitVec.setWidth (addressBits f) (BitVec.setWidth 128 v) := (setWidth_setWidth_block f v).symm
    _ = BitVec.setWidth (addressBits f) (BitVec.setWidth 128 w) := (agreeTop_iff_setWidth hle).mp haddresses
    _ = w := setWidth_setWidth_block f w

/-- R186: there are finitely many n-bit values, so that an injective map of them to themselves misses none. -/
theorem anonMap_bijective (E : Bytes16 → Bytes16 → Bytes16) (f : Family) (s : State) :
    Function.Bijective (anonMap E f s) :=
  Finite.injective_iff_bijective.mp (anonMap_injective E f s)

/-- R178, R179: the command computes the map. -/
theorem exec_withAddress_res_iff {s : State} (hc : s.ctxv = true) {f : Family} {v r : BitVec (addressBits f)} :
    (∃ t, exec (anonCommand f) (s.withAddress f v) = .next t ∧ t.res = BitVec.setWidth 128 r) ↔
      anonMap Config.E f s v = r := by
  have hc' : (s.withAddress f v).ctxv = true := hc
  constructor
  · rintro ⟨t, h, hres⟩
    rw [anonMap, ← res_of_exec_anonCommand hc' h, hres, setWidth_setWidth_block]
  · rintro rfl
    exact ⟨_, exec_anonCommand_of_context hc' f, (setWidth_setWidth_anonResult Config.E f _).symm⟩

/-- R186, for both families. -/
theorem existsUnique_address {s : State} (hc : s.ctxv = true) (f : Family) (r : BitVec (addressBits f)) :
    ∃! v, ∃ t, exec (anonCommand f) (s.withAddress f v) = .next t ∧ t.res = BitVec.setWidth 128 r := by
  simp only [exec_withAddress_res_iff hc]
  exact (anonMap_bijective Config.E f s).existsUnique r

/-- Settles O39: a block is an IPv6 address as it is. -/
theorem anonymizationIsBijection : Obligations.AnonymizationIsBijection := by
  intro s hc
  refine ⟨existsUnique_address hc .v4, fun r => ?_⟩
  have hv6 : ∃! v : Block, ∃ t, exec .anon6 { s with latv := BitVec.setWidth 128 v } = .next t ∧
      t.res = BitVec.setWidth 128 r := existsUnique_address hc .v6 r
  simpa only [BitVec.setWidth_eq] using hv6

end Sys2Proof.Machine

/-! PROOF. What is no error of a command's own (R202, R204 to R206, R211, R212): overrun and its clearing, the illegal word,
the pending word that the host can neither replace nor cancel, accesses with an error response, and the machine that
never stops when the host makes none. -/

namespace Sys2Proof.Machine

open Host (Outcome)

/-! ### The completion of an illegal word (R202) -/

/-- Settles O16: the engine's turn raises IllegalCommand, and the STATUS fields are those of the state it leaves. -/
theorem illegalWordCompletes : Obligations.IllegalWordCompletes := by
  intro s w why hp hd
  obtain ⟨hbusy, -, -, -, herr, -⟩ := statusWordFields (raise .illegalCommand s)
  exact ⟨engineTurn_of_illegal hp hd, herr, hbusy⟩

/-! ### What a completion leaves alone (R204, R205) -/

/-- R205: no completion changes OVR. -/
theorem Completion.ovr {w : Word} {s t : State} (h : Completion w s t) : t.ovr = s.ovr := by
  cases h <;> rfl

/-- R20: no completion changes the host or the parameters. -/
theorem Completion.env {w : Word} {s t : State} (h : Completion w s t) : t.env = s.env := by
  cases h <;> rfl

theorem buildWith_setOvr (E : Bytes16 → Bytes16 → Bytes16) (s : State) (o : Bool) :
    buildWith E { s with ovr := o } = { buildWith E s with ovr := o } := by
  unfold buildWith
  split <;> rfl

theorem anonWith_setOvr (E : Bytes16 → Bytes16 → Bytes16) (f : Family) (s : State) (o : Bool) :
    anonWith E f { s with ovr := o } = { anonWith E f s with ovr := o } := by
  unfold anonWith
  split <;> rfl

/-- R204: no command reads OVR. -/
theorem exec_setOvr {i : Instr} {s t : State} (h : exec i s = .next t) (o : Bool) :
    exec i { s with ovr := o } = .next { t with ovr := o } := by
  cases i with
  | build => cases h; exact congrArg Outcome.next (buildWith_setOvr Config.E s o)
  | anon4 => cases h; exact congrArg Outcome.next (anonWith_setOvr Config.E .v4 s o)
  | anon6 => cases h; exact congrArg Outcome.next (anonWith_setOvr Config.E .v6 s o)
  | nop | keyclr | keyb b => cases h; rfl

/-! ### Overrun and its clearing (R204, R205) -/

theorem ovrAfterWrite_eq_ite (v : Word) (o : Bool) : ovrAfterWrite v o = if v.getLsbD 3 then false else o := by
  unfold ovrAfterWrite
  cases v.getLsbD 3 <;> simp

/-- Of the answered writes, a CMD write while a word is pending alone sets OVR. -/
theorem writeReg_sets_ovr {r : Reg} {v : Word} {s u : State} (h : writeReg r v s = some u) (hs : s.ovr = false)
    (hu : u.ovr = true) : r = .cmd ∧ s.pend ≠ none := by
  obtain ⟨rfl, rfl⟩ | ⟨-, rfl⟩ | ⟨k, -, rfl⟩ := writeReg_cases h
  · refine ⟨rfl, fun hp => ?_⟩
    rw [offer_of_idle hp, accept_ovr, hs] at hu
    cases hu
  · simp [ovrAfterWrite, hs] at hu
  · exact absurd (hs.symm.trans hu) Bool.false_ne_true

/-- Of the host's operations, a write of CMD while a word is pending alone sets OVR. -/
theorem hostTurn_sets_ovr {s t : State} (h : hostTurn s = .next t) (hs : s.ovr = false) (ht : t.ovr = true) :
    s.pend ≠ none ∧ ∃ w, s.env.prog[s.env.hpc]? = some (.write 32 (s.env.base + regOffset .cmd) w) := by
  obtain ⟨-, rfl⟩ | ⟨m, n, -, rfl⟩ | ⟨_, _, _, _, -, -, -, rfl⟩ | ⟨_, _, v, _, u, hop, hoff, hw, rfl⟩ |
    ⟨-, _, _, rfl⟩ := hostTurn_cases h
  case inr.inr.inr.inl =>
    obtain ⟨rfl, r, rfl, hr⟩ := busWrite_eq_some.mp hw
    obtain ⟨rfl, -⟩ := windowOffset_eq_some.mp hoff
    obtain ⟨rfl, hp⟩ := writeReg_sets_ovr hr hs ht
    exact ⟨hp, v, hop⟩
  all_goals exact absurd (hs.symm.trans ht) Bool.false_ne_true

/-- Settles O8: a reset clears OVR and an engine turn keeps it, so a step that sets it is the host's. -/
theorem overrunRule : Obligations.OverrunRule := by
  refine ⟨fun s w hp => ?_, fun i s t h => exec_setOvr h true, fun s t h hs ht => ?_⟩
  · obtain ⟨p, hp⟩ := Option.ne_none_iff_exists'.mp hp
    exact busWrite_eq_some.mpr ⟨rfl, .cmd, rfl, congrArg some (offer_of_busy hp w)⟩
  · obtain ⟨-, rfl⟩ | ⟨hn, h⟩ | ⟨-, rfl | ⟨w, -, hc⟩⟩ := step_effect h
    · cases ht
    · exact ⟨hn, hostTurn_sets_ovr (s := dropTurn s) h hs ht⟩
    · exact absurd (hs.symm.trans ht) Bool.false_ne_true
    · exact absurd (hs.symm.trans (hc.ovr.symm.trans ht)) Bool.false_ne_true

/-- Settles O9: the STATUS write, the commands and the reset turn, one after another. -/
theorem overrunCleared : Obligations.OverrunCleared := by
  refine ⟨fun s v => ?_, fun i s t h => ?_, fun s t h hn => ?_⟩
  · rw [← ovrAfterWrite_eq_ite]
    exact busWrite_eq_some.mpr ⟨rfl, .status, rfl, rfl⟩
  · obtain ⟨-, -, hovr, -⟩ := exec_keeps h
    exact hovr
  · rw [step_of_reset hn] at h
    cases h
    rfl

/-! ### The pending word (R212) -/

/-- Settles O49: a host turn keeps the word pending, and the engine's turn is its completion. -/
theorem pendingNeverCancelled : Obligations.PendingNeverCancelled := by
  intro s t w h hp
  refine ⟨fun hn => ?_, fun hn => ?_⟩
  · exact hostTurn_pend (s := dropTurn s) hp (step_of_host hn ▸ h)
  · exact (engineTurn_completion (s := dropTurn s) hp (step_of_engine hn ▸ h)).pend

/-! ### Accesses with an error response (R206) -/

/-- R206: a host turn whose access gets an error response is the host's reaction to it. -/
theorem hostTurn_of_busError {s : State} {op : HostOp} {bits addr off : Nat} {v : Word}
    (hop : s.env.prog[s.env.hpc]? = some op) (hoff : windowOffset s.env.base addr = some off)
    (herr : op = .read bits addr ∧ busRead s bits off = none ∨ op = .write bits addr v ∧ busWrite bits off v s = none) :
    ∃ x n, hostTurn s = hostError x { s with draws := n } := by
  obtain ⟨rfl, hread⟩ | ⟨rfl, hwrite⟩ := herr
  · refine ⟨Config.errorData s.draws, s.draws + 1, ?_⟩
    simp only [hostTurn_of_read hop, hostRead, hoff, hread]
  · refine ⟨s.env.t, s.draws, ?_⟩
    simp only [hostTurn_of_write hop, hostWrite, hoff, hwrite]

theorem hostError_of_fault {s : State} (h : s.env.onBusError = .fault) (x : Word) :
    hostError x s = .fault .busError := by
  simp only [hostError, h]

theorem hostError_of_resume {s : State} (h : s.env.onBusError = .resume) (x : Word) :
    hostError x s = .next (hostAdvance .error x s) := by
  simp only [hostError, h]

/-- Settles O13: which accesses get an error response does not depend on the state (R55, R56), so the host's turn meets the
same one after the turn is taken off the schedule. -/
theorem busErrorChangesNoEngineState : Obligations.BusErrorChangesNoEngineState := by
  intro s rest op bits addr off v hs hop hoff herr
  have herr' : op = .read bits addr ∧ busRead (dropTurn s) bits off = none ∨
      op = .write bits addr v ∧ busWrite bits off v (dropTurn s) = none := by
    simpa only [busRead_eq_none, busWrite_eq_none] using herr
  obtain ⟨x, n, hturn⟩ := hostTurn_of_busError (s := dropTurn s) hop hoff herr'
  rw [step_of_host (nextTurn_of_schedule hs), hturn, dropTurn_eq hs]
  refine ⟨fun hfault => ?_, fun hresume => ⟨x, n, ?_⟩⟩
  · apply hostError_of_fault
    exact hfault
  · apply hostError_of_resume
    exact hresume

/-! ### A host program without error responses (R206, R211) -/

/-- R20: no step changes the host's program or the base of the window. -/
theorem step_keeps_program {s t : State} (h : step s = .next t) :
    t.env.prog = s.env.prog ∧ t.env.base = s.env.base := by
  obtain ⟨-, rfl⟩ | ⟨-, h⟩ | ⟨-, rfl | ⟨w, -, hc⟩⟩ := step_effect h
  · exact ⟨rfl, rfl⟩
  · obtain ⟨hprog, hbase, -⟩ := hostTurn_env h
    exact ⟨hprog, hbase⟩
  · exact ⟨rfl, rfl⟩
  · rw [hc.env]
    exact ⟨rfl, rfl⟩

/-- R211: a completion and a reset raise no failure, and a mapped access gets no error response. -/
theorem step_next_of_mapped {s : State} (h : HostProgramMapped s) : ∃ t, step s = .next t := by
  cases hn : nextTurn s with
  | host => exact step_of_host hn ▸ hostTurn_next_of_mapped (s := dropTurn s) h
  | engine => exact step_of_engine hn ▸ engineTurn_next (dropTurn s)
  | reset => exact ⟨_, step_of_reset hn⟩

/-- Settles O56: the step is answered, and the next state has the same program at the same base. -/
theorem mappedProgramNeverStops : Obligations.MappedProgramNeverStops := by
  intro s hmapped
  obtain ⟨t, hstep⟩ := step_next_of_mapped hmapped
  obtain ⟨hprog, hbase⟩ := step_keeps_program hstep
  refine ⟨t, hstep, ?_⟩
  unfold HostProgramMapped
  rw [hprog, hbase]
  exact hmapped

end Sys2Proof.Machine

/-! PROOF. The reset input's turn (R230, R231). -/

namespace Sys2Proof.Machine

/-- Settles O2: a reset turn takes nothing of the engine's state over, the pending word included. -/
theorem resetAbandonsPendingCommand : Obligations.ResetAbandonsPendingCommand := by
  intro s rest hs
  rw [step_of_reset (nextTurn_of_schedule hs), dropTurn_eq hs]
  rfl

end Sys2Proof.Machine

/-! PROOF. A host program that writes CMD only through `issue` (R81, R240): in its operations every CMD write stands behind its
own wait loop, and every branch leads outside that loop or to its start; so in every state of a run nothing is pending when the
write comes. -/

namespace Sys2Proof.Machine

/-! ### The shape of the operations (R81) -/

/-- A write of CMD stands at position `n`. -/
def CmdWriteAt (base : Nat) (ops : List HostOp) (n : Nat) : Prop := ∃ w, ops[n]? = some (wrOp base .cmd w)

/-- Every CMD write stands right after a read of STATUS and a branch on its BUSY bit, and a branch leads neither to the write nor to
the branch before it. -/
structure CmdGuarded (base : Nat) (ops : List HostOp) : Prop where
  wait : ∀ n, CmdWriteAt base ops n →
    ∃ j k, n = j + 2 ∧ ops[j]? = some (rdOp base .status) ∧ ops[j + 1]? = some (.bnz 1#32 k)
  branch : ∀ (n : Nat) (m : Word) (k : Nat), ops[n]? = some (.bnz m k) → ¬CmdWriteAt base ops k ∧ ¬CmdWriteAt base ops (k + 1)

section
variable {base n : Nat} {ops : List HostOp}

theorem CmdGuarded.read_of_cmdWriteAt (hg : CmdGuarded base ops) (h : CmdWriteAt base ops (n + 2)) :
    ops[n]? = some (rdOp base .status) := by
  obtain ⟨j, _, hj, hread, -⟩ := hg.wait _ h
  rwa [Nat.add_right_cancel hj]

theorem CmdGuarded.branch_of_cmdWriteAt (hg : CmdGuarded base ops) (h : CmdWriteAt base ops (n + 1)) :
    ∃ k, ops[n]? = some (.bnz 1#32 k) := by
  obtain ⟨j, k, hj, -, hbranch⟩ := hg.wait _ h
  rw [Nat.add_right_cancel (k := j + 1) hj]
  exact ⟨k, hbranch⟩

end

theorem wrOp_inj {base : Nat} {r r' : Reg} {v w : Word} (h : wrOp base r v = wrOp base r' w) : r = r' := by
  simp only [wrOp, HostOp.write.injEq, Nat.add_left_cancel_iff] at h
  obtain ⟨-, hoff, -⟩ := h
  exact Option.some.inj ((regAt_regOffset r).symm.trans (hoff ▸ regAt_regOffset r'))

/-- An operation outside the wait loops: no CMD write, and if a branch, then to the start of a line of `p`. -/
structure PlainOp (base : Nat) (p : List HostLine) (op : HostOp) : Prop where
  notCmd : ∀ w, op ≠ wrOp base .cmd w
  target : ∀ m k, op = .bnz m k → ∃ n, k = lineStart p n

/-- The operations from position `pos` on are plain operations, wait loops and `issue`s. -/
inductive Issued (base : Nat) (p : List HostLine) : Nat → List HostOp → Prop
  | nil (pos : Nat) : Issued base p pos []
  | plain {pos : Nat} {op : HostOp} {rest : List HostOp} (hop : PlainOp base p op) (h : Issued base p (pos + 1) rest) :
      Issued base p pos (op :: rest)
  | wait {pos : Nat} {rest : List HostOp} (h : Issued base p (pos + 2) rest) : Issued base p pos (waitOps base pos ++ rest)
  | issue {pos : Nat} {rest : List HostOp} (i : Instr) (h : Issued base p (pos + 3) rest) :
      Issued base p pos (issueOps base pos i ++ rest)

section
variable {base : Nat} {p : List HostLine}

theorem plainOp_rdOp (r : Reg) : PlainOp base p (rdOp base r) :=
  ⟨fun _ h => HostOp.noConfusion h, fun _ _ h => HostOp.noConfusion h⟩

theorem plainOp_wrOp {r : Reg} (hr : r ≠ .cmd) (v : Word) : PlainOp base p (wrOp base r v) :=
  ⟨fun _ h => hr (wrOp_inj h), fun _ _ h => HostOp.noConfusion h⟩

theorem plainOp_bnz_lineStart (m : Word) (n : Nat) : PlainOp base p (.bnz m (lineStart p n)) :=
  ⟨fun _ h => HostOp.noConfusion h, fun _ _ h => ⟨n, (HostOp.bnz.inj h).2.symm⟩⟩

theorem issued_issueAllOps {pos : Nat} (is : List Instr) {rest : List HostOp}
    (h : Issued base p (pos + 3 * is.length) rest) : Issued base p pos (issueAllOps base pos is ++ rest) := by
  induction is generalizing pos with
  | nil => exact h
  | cons i is ih =>
    rw [issueAllOps, List.append_assoc]
    refine .issue i (ih ?_)
    rwa [Nat.add_assoc, Nat.add_comm 3, ← Nat.mul_succ]

/-- R81, R240: each line but a `wr` on CMD expands to plain operations, wait loops and `issue`s. -/
theorem issued_lineOps {pos : Nat} {l : HostLine} (hl : noRawCommand l = true) {rest : List HostOp}
    (h : Issued base p (pos + lineSize l) rest) : Issued base p pos (lineOps base p pos l ++ rest) := by
  have hdin (k : Fin 4) (v : Word) : PlainOp base p (wrOp base (.din k) v) := plainOp_wrOp Reg.noConfusion v
  have hres (k : Fin 4) : PlainOp base p (rdOp base (.res k)) := plainOp_rdOp _
  cases l with
  | cmd i => exact .issue i h
  | wr r v => exact .plain (plainOp_wrOp (by rintro rfl; cases hl) v) h
  | rd r => exact .plain (plainOp_rdOp r) h
  | bnz m label => exact .plain (plainOp_bnz_lineStart m label) h
  | wait => exact .wait h
  | ldkey key => exact issued_issueAllOps _ (by simpa [lineSize] using h)
  | setdin v => exact .plain (hdin 0 _) (.plain (hdin 1 _) (.plain (hdin 2 _) (.plain (hdin 3 _) h)))
  | setdin4 v => exact .plain (hdin 0 v) h
  | getres => exact .wait (.plain (hres 0) (.plain (hres 1) (.plain (hres 2) (.plain (hres 3) h))))
  | getres4 => exact .wait (.plain (hres 0) h)
  | clrovr => exact .plain (plainOp_wrOp Reg.noConfusion _) h

theorem issued_assembleFrom (pos : Nat) {ls : List HostLine} (h : ∀ l ∈ ls, noRawCommand l = true) :
    Issued base p pos (assembleFrom base p pos ls) := by
  induction ls generalizing pos with
  | nil => exact .nil pos
  | cons l rest ih =>
    obtain ⟨hl, hrest⟩ := List.forall_mem_cons.mp h
    exact issued_lineOps hl (ih (pos + lineSize l) hrest)

/-- R81: a CMD write is the third operation of an `issue`. -/
theorem Issued.wait_of_cmdWriteAt {pos n : Nat} {ops : List HostOp} (h : Issued base p pos ops)
    (hn : CmdWriteAt base ops n) :
    ∃ j k, n = j + 2 ∧ ops[j]? = some (rdOp base .status) ∧ ops[j + 1]? = some (.bnz 1#32 k) := by
  induction h generalizing n with
  | nil pos =>
    obtain ⟨w, hw⟩ := hn
    cases hw
  | plain hop _ ih =>
    cases n with
    | zero =>
      obtain ⟨w, hw⟩ := hn
      exact absurd (Option.some.inj hw) (hop.notCmd w)
    | succ n =>
      obtain ⟨j, k, rfl, hj⟩ := ih hn
      exact ⟨j + 1, k, rfl, hj⟩
  | wait _ ih =>
    match n, hn with
    | 0, ⟨_, hw⟩ | 1, ⟨_, hw⟩ => cases hw
    | n + 2, hn =>
      obtain ⟨j, k, rfl, hj⟩ := ih hn
      exact ⟨j + 2, k, rfl, hj⟩
  | issue i _ ih =>
    match n, hn with
    | 0, ⟨_, hw⟩ | 1, ⟨_, hw⟩ => cases hw
    | 2, _ => exact ⟨0, _, rfl, rfl, rfl⟩
    | n + 3, hn =>
      obtain ⟨j, k, rfl, hj⟩ := ih hn
      exact ⟨j + 3, k, rfl, hj⟩

/-- R80, R81: a branch leads to the start of a line, or is the second operation of a wait loop and leads to its first. -/
theorem Issued.target_of_branch {pos n k : Nat} {m : Word} {ops : List HostOp} (h : Issued base p pos ops)
    (hn : ops[n]? = some (.bnz m k)) :
    (∃ l, k = lineStart p l) ∨ ∃ j, n = j + 1 ∧ k = pos + j ∧ ops[j]? = some (rdOp base .status) := by
  induction h generalizing n with
  | nil pos => cases hn
  | plain hop _ ih =>
    cases n with
    | zero => exact .inl (hop.target m k (Option.some.inj hn))
    | succ n =>
      refine (ih hn).imp_right ?_
      rintro ⟨j, rfl, rfl, hj⟩
      exact ⟨j + 1, rfl, by omega, hj⟩
  | wait _ ih =>
    match n, hn with
    | 0, hn => cases hn
    | 1, hn => cases hn; exact .inr ⟨0, rfl, rfl, rfl⟩
    | n + 2, hn =>
      refine (ih hn).imp_right ?_
      rintro ⟨j, rfl, rfl, hj⟩
      exact ⟨j + 2, rfl, by omega, hj⟩
  | issue i _ ih =>
    match n, hn with
    | 0, hn | 2, hn => cases hn
    | 1, hn => cases hn; exact .inr ⟨0, rfl, rfl, rfl⟩
    | n + 3, hn =>
      refine (ih hn).imp_right ?_
      rintro ⟨j, rfl, rfl, hj⟩
      exact ⟨j + 3, rfl, by omega, hj⟩

/-- From position `lineStart p n` on stand the expansions of the lines from line `n` on. -/
theorem assemble_getElem?_lineStart_add (base : Nat) (p : List HostLine) (n d : Nat) :
    (assemble base p)[lineStart p n + d]? = (assembleFrom base p (lineStart p n) (p.drop n))[d]? := by
  have hlen : (assembleFrom base p 0 (p.take n)).length = lineStart p n := length_assembleFrom base p 0 (p.take n)
  have hsplit : assemble base p =
      assembleFrom base p 0 (p.take n) ++ assembleFrom base p (lineStart p n) (p.drop n) := by
    conv_lhs => rw [assemble, ← List.take_append_drop n p, assembleFrom_append, Nat.zero_add]
    rw [List.take_append_drop]
    rfl
  rw [hsplit, List.getElem?_append_right (by omega), hlen, Nat.add_sub_cancel_left]

/-- R81: neither at the start of a line nor right after it stands a CMD write. -/
theorem not_cmdWriteAt_lineStart (h : ∀ l ∈ p, noRawCommand l = true) (n : Nat) {d : Nat} (hd : d < 2) :
    ¬CmdWriteAt base (assemble base p) (lineStart p n + d) := by
  rintro ⟨w, hw⟩
  rw [assemble_getElem?_lineStart_add] at hw
  have hlines : Issued base p (lineStart p n) (assembleFrom base p (lineStart p n) (p.drop n)) :=
    issued_assembleFrom _ fun l hl => h l (List.mem_of_mem_drop hl)
  obtain ⟨j, _, rfl, -⟩ := hlines.wait_of_cmdWriteAt ⟨w, hw⟩
  omega

/-- R80, R81: the operations of a program that writes CMD only through `issue`. -/
theorem cmdGuarded_assemble (h : ∀ l ∈ p, noRawCommand l = true) : CmdGuarded base (assemble base p) := by
  have hissued : Issued base p 0 (assemble base p) := issued_assembleFrom 0 h
  refine ⟨fun n => hissued.wait_of_cmdWriteAt, fun n m k hn => ?_⟩
  obtain ⟨l, rfl⟩ | ⟨j, rfl, rfl, hj⟩ := hissued.target_of_branch hn
  · exact ⟨not_cmdWriteAt_lineStart h l (d := 0) (by omega), not_cmdWriteAt_lineStart h l (d := 1) (by omega)⟩
  · rw [Nat.zero_add]
    exact ⟨fun ⟨_, hw⟩ => HostOp.noConfusion (Option.some.inj (hj.symm.trans hw)),
      fun ⟨_, hw⟩ => HostOp.noConfusion (Option.some.inj (hn.symm.trans hw))⟩

end

/-! ### The invariant of the run (R240) -/

/-- The host writes CMD only through `issue`, and has read BUSY = 0 since the last command when it comes to the write: at the wait
loop's branch in `t`, and at the write itself. -/
structure IssueInv (s : State) : Prop where
  guarded : CmdGuarded s.env.base s.env.prog
  ovr : s.ovr = false
  atBranch : CmdWriteAt s.env.base s.env.prog (s.env.hpc + 1) → s.env.t &&& 1#32 = 0 → s.pend = none
  atWrite : CmdWriteAt s.env.base s.env.prog s.env.hpc → s.pend = none

/-- With nothing pending, the host may stand anywhere. -/
theorem IssueInv.of_idle {s : State} (hg : CmdGuarded s.env.base s.env.prog) (hovr : s.ovr = false) (hp : s.pend = none) :
    IssueInv s :=
  ⟨hg, hovr, fun _ _ => hp, fun _ => hp⟩

/-- R26: a STATUS word with bit 0 clear says that nothing is pending. -/
theorem pend_eq_none_of_statusWord {s : State} (h : statusWord s &&& 1#32 = 0) : s.pend = none := by
  have hbit : (statusWord s &&& 1#32).getLsbD 0 = busy s := by
    rw [BitVec.getLsbD_and, statusWord_getLsbD]
    simp
  rw [h] at hbit
  exact Option.isNone_iff_eq_none.mp (by simpa [busy] using hbit.symm)

/-- R80: after an access, answered or not, the host goes on with its next operation. -/
theorem hostTurn_hpc_of_access {s t : State} {op : HostOp} (h : hostTurn s = .next t)
    (hop : s.env.prog[s.env.hpc]? = some op) (haccess : ∀ m n, op ≠ .bnz m n) : t.env.hpc = s.env.hpc + 1 := by
  obtain ⟨hend, -⟩ | ⟨m, n, hbranch, -⟩ | ⟨_, _, _, _, -, -, -, rfl⟩ | ⟨_, _, _, _, u, -, -, hw, rfl⟩ |
    ⟨-, _, _, rfl⟩ := hostTurn_cases h
  · cases hop.symm.trans hend
  · exact absurd (Option.some.inj (hop.symm.trans hbranch)) (haccess m n)
  · rfl
  · obtain ⟨-, -, -, -, -, -, -, -, -, -, henv⟩ := busWrite_keeps hw
    simp [henv]
  · rfl

/-- R204: the only CMD writes the host comes to are accepted. -/
theorem hostTurn_ovr_of_issueInv {s t : State} (hs : IssueInv s) (h : hostTurn s = .next t) : t.ovr = false := by
  by_contra hovr
  obtain ⟨hp, hwrite⟩ := hostTurn_sets_ovr h hs.ovr (by simpa using hovr)
  exact hp (hs.atWrite hwrite)

/-- R80, R81: a wait loop's branch is not taken only with BUSY = 0 in `t`, and a branch that is taken leads neither to a CMD write
nor to the branch before one. -/
theorem issueInv_hostBranch {s : State} {m : Word} {k : Nat} (hs : IssueInv s)
    (hop : s.env.prog[s.env.hpc]? = some (.bnz m k)) : IssueInv (hostBranch m k s) := by
  by_cases htaken : s.env.t &&& m ≠ 0
  · obtain ⟨hwrite, hbranch⟩ := hs.guarded.branch _ m k hop
    refine ⟨hs.guarded, hs.ovr, ?_, ?_⟩ <;> rw [hostBranch_env, if_pos htaken]
    · exact fun hcmd => absurd hcmd hbranch
    · exact fun hcmd => absurd hcmd hwrite
  · refine ⟨hs.guarded, hs.ovr, ?_, ?_⟩ <;> rw [hostBranch_env, if_neg htaken] <;> intro hcmd
    · cases hop.symm.trans (hs.guarded.read_of_cmdWriteAt hcmd)
    · obtain ⟨k', hwait⟩ := hs.guarded.branch_of_cmdWriteAt hcmd
      cases hop.symm.trans hwait
      exact hs.atBranch hcmd (not_not.mp htaken)

/-- R81: the access before a wait loop's branch is a read of STATUS, and the access before a CMD write is none. -/
theorem issueInv_access {s t : State} {op : HostOp} (hs : IssueInv s) (h : hostTurn s = .next t)
    (hop : s.env.prog[s.env.hpc]? = some op) (haccess : ∀ m n, op ≠ .bnz m n) : IssueInv t := by
  obtain ⟨hprog, hbase, -⟩ := hostTurn_env h
  have hhpc := hostTurn_hpc_of_access h hop haccess
  refine ⟨?_, hostTurn_ovr_of_issueInv hs h, fun hcmd => ?_, fun hcmd => ?_⟩
  · rw [hprog, hbase]
    exact hs.guarded
  all_goals rw [hprog, hbase, hhpc] at hcmd
  · have hread := hostTurn_of_read (hs.guarded.read_of_cmdWriteAt hcmd)
    cases (hread.trans (hostRead_reg s .status)).symm.trans h
    exact pend_eq_none_of_statusWord
  · obtain ⟨k, hwait⟩ := hs.guarded.branch_of_cmdWriteAt hcmd
    exact absurd (Option.some.inj (hop.symm.trans hwait)) (haccess _ k)

theorem issueInv_hostTurn {s t : State} (hs : IssueInv s) (h : hostTurn s = .next t) : IssueInv t := by
  cases hop : s.env.prog[s.env.hpc]? with
  | none =>
    rw [hostTurn_of_end hop] at h
    cases h
    exact hs
  | some op =>
    cases op with
    | bnz m k =>
      rw [hostTurn_of_branch hop] at h
      cases h
      exact issueInv_hostBranch hs hop
    | read bits addr => exact issueInv_access hs h hop fun _ _ e => HostOp.noConfusion e
    | write bits addr v => exact issueInv_access hs h hop fun _ _ e => HostOp.noConfusion e

theorem issueInv_dropTurn {s : State} (hs : IssueInv s) : IssueInv (dropTurn s) :=
  ⟨hs.guarded, hs.ovr, hs.atBranch, hs.atWrite⟩

/-- A reset and a completion leave nothing pending (R40, R230); a host turn is the invariant's own case. -/
theorem issueInv_step {s t : State} (hs : IssueInv s) (h : step s = .next t) : IssueInv t := by
  obtain ⟨hprog, hbase⟩ := step_keeps_program h
  have hguarded : CmdGuarded t.env.base t.env.prog := by
    rw [hprog, hbase]
    exact hs.guarded
  obtain ⟨-, rfl⟩ | ⟨-, h⟩ | ⟨-, rfl | ⟨w, -, hc⟩⟩ := step_effect h
  · exact .of_idle hguarded rfl rfl
  · exact issueInv_hostTurn (issueInv_dropTurn hs) h
  · exact issueInv_dropTurn hs
  · exact .of_idle hguarded (hc.ovr.trans hs.ovr) hc.pend

/-- What every step keeps, every run keeps. -/
theorem run_keeps {P : State → Prop} (hstep : ∀ {s t}, P s → step s = .next t → P t) {k : Nat} {s t : State} (hs : P s)
    (h : Sys2Proof.core.run k s = .next t) : P t := by
  induction k generalizing s with
  | zero => cases h; exact hs
  | succ k ih =>
    simp only [Host.Core.run] at h
    split at h
    case h_1 u hu => exact ih (hstep hs hu) h
    all_goals cases h

/-- At the first line the host is before any wait loop, whatever is pending. -/
theorem IssueInv.of_start {s : State} (hg : CmdGuarded s.env.base s.env.prog) (hpc : s.env.hpc = 0) (hovr : s.ovr = false) :
    IssueInv s := by
  refine ⟨hg, hovr, ?_, ?_⟩ <;> intro hcmd <;> obtain ⟨j, _, hj, -⟩ := hg.wait _ hcmd <;> omega

/-- Settles O57: the program is guarded, the invariant holds at its first line, and every step of the run keeps it. -/
theorem issueNeverOverruns : Obligations.IssueNeverOverruns := by
  intro p s t k hp hprog hpc hovr hrun
  have hguarded : CmdGuarded s.env.base s.env.prog := hprog ▸ cmdGuarded_assemble hp
  have hinv : IssueInv t := run_keeps issueInv_step (.of_start hguarded hpc hovr) hrun
  exact hinv.ovr

end Sys2Proof.Machine
